-- ==== Sys2Proof/Word.lean ====
section
/-! DEFINITION. The value types of the TSB (00_scope.md R11, 10_state.md R22): plain names for bit vectors and levels. -/

namespace Sys2Proof

/-- A 2-bit operation word `op[1:0]` of format EV (30_encoding.md R70). -/
abbrev OpWord := BitVec 2

/-- A decimal digit register of 4 bits (10_state.md R31); also the 4-bit index of the ROM (20_memory.md R50). -/
abbrev Digit := BitVec 4

/-- An 8-bit segment pattern (46_segment_encoder.md R160). -/
abbrev Pattern := BitVec 8

/-- One byte of a packed program (30_encoding.md R81). -/
abbrev Byte := BitVec 8

/-- The level of a pin (10_state.md R33 to R35): `false` is level 0, `true` is level 1. -/
abbrev Level := Bool

end Sys2Proof
end

