-- ==== Sys2Proof/Config.lean ====
section
/-! DEFINITION. The configuration record `Cfg` (00_scope.md R5) and the fixed constants (R6). The checks and the default
values stand in Machine/Setup.lean. -/

namespace Sys2Proof

/-- The configuration of one TSB instance, fixed for the whole run (00_scope.md R5). Every field is a natural number, so
that a configuration that breaks a constraint of R5 can be written down and refused (60_exceptions.md R176). -/
structure Cfg where
  /-- `W`: qualifying ticks from one rollover to the next. -/
  W : Nat
  /-- `R`: refresh cycle length in qualifying ticks. -/
  R : Nat
  /-- `TW`: width of PulseTally in bits. -/
  TW : Nat
  /-- `SEG_TABLE`: the contents of the Segment Encoder ROM, entry `a` at position `a`. -/
  segTable : List Nat
deriving DecidableEq, Repr

/-- `NDIG`, the digits of the display (R6). -/
abbrev ndig : Nat := 3

/-- `NSEG`, the bits of one digit pattern (R6). -/
abbrev nseg : Nat := 8

/-- `SEG_PHASES = NDIG × NSEG`, the data ticks of one frame (R6). -/
abbrev segPhases : Nat := ndig * nseg

/-- `SPC`, segment_phase_count (R6, conflict C7). -/
abbrev spc : Nat := 25

/-- `SPEED_MAX` (R6). -/
abbrev speedMax : Nat := 999

/-- `TALLY_MAX = 2^TW − 1` (R6). -/
abbrev Cfg.tallyMax (c : Cfg) : Nat := 2 ^ c.TW - 1

end Sys2Proof
end

