-- ==== Sys2Proof/Machine/Setup.lean ====
section
/-! DEFINITION. The constraints on a configuration (00_scope.md R5), the derived register widths (R7), the default
contents of the ROM (46_segment_encoder.md R161) and the configuration of the reset state. -/

namespace Sys2Proof.Machine

/-- The form of the Segment Encoder ROM, the only memory of the TSB (20_memory.md R50, R52): exactly 10 entries, each in
0..255 (00_scope.md R5, 60_exceptions.md R176). -/
abbrev Memory.wf (rom : List Nat) : Prop := rom.length = 10 ∧ ∀ e ∈ rom, e ≤ 255

/-- The constraints of 00_scope.md R5, as 60_exceptions.md R176 lists them. -/
abbrev ConfigOk (c : Cfg) : Prop := 1 ≤ c.W ∧ 26 ≤ c.R ∧ 10 ≤ c.TW ∧ Memory.wf c.segTable

/-- `ceil(log2 n)`, and 1 for `n = 1` (00_scope.md R7). -/
def modulusWidth (n : Nat) : Nat := if n = 1 then 1 else Nat.log2 (n - 1) + 1

/-- The width in bits of the WindowCountdown register (00_scope.md R7). -/
def wcWidth (c : Cfg) : Nat := modulusWidth c.W

/-- The width in bits of the RefreshCountdown register (00_scope.md R7). -/
def rcWidth (c : Cfg) : Nat := modulusWidth c.R

/-- The default ROM contents: bit 0 = A to bit 6 = G, bit 7 = DP, DP off (46_segment_encoder.md R161, which the spec marks
as general knowledge). PRESUMED by the spec itself: notes/assumptions/3.md. -/
def segTableDefault : List Nat := [0x3F, 0x06, 0x5B, 0x4F, 0x66, 0x6D, 0x7D, 0x07, 0x7F, 0x6F]

/-- The configuration of `State.reset`: `R` = 38, `TW` = 16 and the ROM of R161 are the values of 00_scope.md R5. `W` is
OPEN in the spec (92 D7); 2 is the model's DESIGN CHOICE, the window of program P1 (notes/assumptions/2.md). -/
def cfgDefault : Cfg := ⟨2, 38, 16, segTableDefault⟩

end Sys2Proof.Machine
end

