-- ==== Sys2Proof/Machine/State.lean ====
section
/-! DEFINITION. The state of the TSB as plain data (10_state.md R22, R38), and the state after reset
(70_reset_and_hazards.md R200). -/

namespace Sys2Proof.Machine

/-- The five output pins (10_state.md R22, 60_exceptions.md R183). -/
inductive Pin where
  /-- `CLK`, the clock output (10_state.md R26). -/
  | clk
  /-- `STAT`, the status indicator (R27). -/
  | stat
  /-- `DE_N`, data-enable, active low (R34). -/
  | deN
  /-- `SB`, start bit, active high (R35). -/
  | sb
  /-- `SDO`, serial data output (R33). -/
  | sdo
deriving DecidableEq, Repr

/-- One entry of a pin trace: the pin and the level it changes to (00_scope.md R15). -/
abbrev PinEvent := Pin × Level

/-- DisplayDigits, the register file of three 4-bit entries (10_state.md R31). -/
structure Digits where
  /-- `DIG[0]`, hundreds. -/
  d0 : Digit
  /-- `DIG[1]`, tens. -/
  d1 : Digit
  /-- `DIG[2]`, ones. -/
  d2 : Digit
deriving DecidableEq, Repr

/-- The elements whose legal range FLT_STATE_RANGE checks (60_exceptions.md R175). -/
inductive Element where
  | wc
  | rc
  | curD
  | dig0
  | dig1
  | dig2
  | tally
deriving DecidableEq, Repr

/-- The fault codes of the spec (60_exceptions.md R175). They are bookkeeping of the model's state, not stops. -/
inductive FaultCode where
  /-- FLT_ROM_INDEX, code 1. -/
  | romIndex
  /-- FLT_DECOMP_DOMAIN, code 2. -/
  | decompDomain
  /-- FLT_STATE_RANGE, code 3. -/
  | stateRange
deriving DecidableEq, Repr

/-- A recorded fault: its code with the information 60_exceptions.md R175 says is recorded. -/
inductive FaultRecord where
  /-- FLT_ROM_INDEX with the index `a`: raised by SEGLUT (R163, R50) for `a >= 10`. -/
  | romIndex (a : Digit)
  /-- FLT_DECOMP_DOMAIN with `SPEED`: raised by DECOMPOSE (R151) for `SPEED >= 1000`. -/
  | decompDomain (speed : BitVec 10)
  /-- FLT_STATE_RANGE with the element's name and value: raised at step start (R175). -/
  | stateRange (e : Element) (v : Nat)
deriving DecidableEq, Repr

/-- A move of the environment Env (00_scope.md R8): an operation word (a timer tick, an input edge, no event, or in breach
of R10 the reserved word), or reset, which is not an operation word (30_encoding.md R74). -/
inductive EnvMove where
  | op (w : OpWord)
  | reset
deriving DecidableEq, Repr

/-- Why a step stops with a fault. There is no constructor: every fault of the spec is recorded in `FAULT` and its step
completes (60_exceptions.md R175), so no step of the TSB stops the machine (notes/assumptions/14.md). Safe: nothing is
stopped that the spec lets go on. -/
inductive Fault where
deriving DecidableEq, Repr

/-- Why a step is refused by the model. The spec's own refusals set `REFUSED` and are next states (60_exceptions.md
R176), so they are not here. -/
inductive Refusal where
  /-- Raised by an arm of `exec` whose instruction has no meaning yet; no arm raises it. Safe: nothing can be proved of the
  next state of a step that has none. -/
  | notModelled (mnemonic : String)
deriving DecidableEq, Repr

/-- The state of the TSB (10_state.md R22), its configuration (00_scope.md R5), the spec's bookkeeping (R38), and the
model's own fields `trace`, `romOut` and `env`. -/
structure State where
  /-- The configuration, which no step writes (00_scope.md R5, 10_state.md R37). -/
  cfg : Cfg
  /-- `TALLY`, PulseTally (R23), a register of `TW` bits. -/
  tally : Nat
  /-- `WC`, WindowCountdown (R24), legal values `0..W−1`. -/
  wc : Nat
  /-- `SPEED`, SpeedValue (R25). -/
  speed : BitVec 10
  /-- `DIG`, DisplayDigits (R31). -/
  dig : Digits
  /-- `RC`, RefreshCountdown (R28), legal values `0..R−1`. -/
  rc : Nat
  /-- `CUR_D`, digitIndex of the cursor (R29). -/
  curD : BitVec 2
  /-- `CUR_S`, segmentIndex of the cursor (R30). -/
  curS : BitVec 3
  /-- The level of `CLK` (R26). -/
  clk : Level
  /-- The level of `STAT` (R27). -/
  stat : Level
  /-- The level of `DE_N` (R34). -/
  deN : Level
  /-- The level of `SB` (R35). -/
  sb : Level
  /-- The level of `SDO` (R33). -/
  sdo : Level
  /-- `FAULT` (R38): what has been recorded since reset, each record once, oldest first. -/
  faults : List FaultRecord
  /-- `REFUSED` (R38). -/
  refused : Bool
  /-- The output of the current step: its pin events in order (00_scope.md R15). -/
  trace : List PinEvent
  /-- The output of the current step's ROM read, `none` when it made none: the `p` of 44_display_multiplexer.md R134
  (notes/assumptions/12.md). No operation reads it. -/
  romOut : Option Pattern
  /-- The moves Env has still to present, the next one first (60_exceptions.md R172; notes/assumptions/6.md). -/
  env : List EnvMove
deriving DecidableEq, Repr

/-- The reset state of an instance with configuration `c` (70_reset_and_hazards.md R200), with nothing presented yet. -/
def State.resetOf (c : Cfg) : State where
  cfg := c
  tally := 0
  wc := c.W - 1
  speed := 0
  dig := ⟨0, 0, 0⟩
  rc := 0
  curD := 2
  curS := 7
  clk := false
  stat := false
  deN := true
  sb := false
  sdo := false
  faults := []
  refused := false
  trace := []
  romOut := none
  env := []

/-- The machine right after reset (70_reset_and_hazards.md R200), under the configuration `cfgDefault`
(notes/assumptions/2.md). -/
def State.reset : State := State.resetOf cfgDefault

end Sys2Proof.Machine
end

