-- ==== Sys2Proof/Syntax.lean ====
section
/-! DEFINITION. The operations of the TSB: one constructor per row of spec/opcode_table.json (30_encoding.md R70, R75 to
R78). No operation has an operand (R71). -/

namespace Sys2Proof

/-- The operations and micro-operations of the TSB. The first four have an operation word (format EV, R70); the others are
the internal selects (R75 to R77) and functions (R78) a TICK step decodes into, and have no word. -/
inductive Instr where
  /-- `NOP`, word `00`: no event (42_tick_scheduler.md R112). -/
  | nop
  /-- `TICK`, word `01`: timer compare-match event (42_tick_scheduler.md R110). -/
  | tick
  /-- `EDGE`, word `10`: rising edge on the input line (41_edge_counter.md R101). -/
  | edge
  /-- `RESERVED_11`, word `11`: spells no operation; refused (30_encoding.md R73). -/
  | reserved11
  /-- `TICK_SKIP`: TICK whose new CLK is 1, after the toggle (30_encoding.md R75). -/
  | tickSkip
  /-- `TICK_RUN`: TICK whose new CLK is 0, after the toggle (30_encoding.md R75). -/
  | tickRun
  /-- `RW_ROLL`: window rollover with capture (43_rate_window.md R121). -/
  | rwRoll
  /-- `RW_DEC`: window countdown (43_rate_window.md R123). -/
  | rwDec
  /-- `DMUX_START`: open a frame (44_display_multiplexer.md R131). -/
  | dmuxStart
  /-- `DMUX_SEGMENT`: shift out one segment bit (44_display_multiplexer.md R134). -/
  | dmuxSegment
  /-- `DMUX_IDLE`: no action (44_display_multiplexer.md R137). -/
  | dmuxIdle
  /-- `DMUX_END`: close and latch the frame (44_display_multiplexer.md R138). -/
  | dmuxEnd
  /-- `DECOMPOSE`: binary to three decimal digits (45_digit_decomposer.md R150). -/
  | decompose
  /-- `SEGLUT`: the ROM read (46_segment_encoder.md R163). -/
  | seglut
deriving DecidableEq, Repr

/-- The two formats of spec/opcode_table.json. -/
inductive Format where
  /-- Format EV: the row has a 2-bit operation word (30_encoding.md R70). -/
  | ev
  /-- The row is an internal select or function and has no word (30_encoding.md R75 to R78). -/
  | internal
deriving DecidableEq, Repr

/-- The format of each row of the table. -/
def Instr.format : Instr → Format
  | .nop => .ev
  | .tick => .ev
  | .edge => .ev
  | .reserved11 => .ev
  | .tickSkip => .internal
  | .tickRun => .internal
  | .rwRoll => .internal
  | .rwDec => .internal
  | .dmuxStart => .internal
  | .dmuxSegment => .internal
  | .dmuxIdle => .internal
  | .dmuxEnd => .internal
  | .decompose => .internal
  | .seglut => .internal

end Sys2Proof
end

