-- ==== Sys2Proof/Machine/Flags.lean ====
section
/-! DEFINITION. The TSB has no status flag and no condition code (10_state.md R36). What stands in their place are the
selects of 30_encoding.md R75 to R77, which compare `CLK`, `WC` and `RC` with constants directly. -/

namespace Sys2Proof.Machine

/-- Select CLK, on the level after the toggle (30_encoding.md R75). -/
def selectClk (clk' : Level) : Instr := if clk' then .tickSkip else .tickRun

/-- A TICK from this state is a qualifying tick: its toggle leaves `CLK = 0` (42_tick_scheduler.md R111). -/
def qualifying (s : State) : Bool := s.clk

/-- Select WC, on the value at entry to RATE_WINDOW (30_encoding.md R76). -/
def selectWindow (wc : Nat) : Instr := if wc = 0 then .rwRoll else .rwDec

/-- The phases of the Display Multiplexer (00_scope.md R16). -/
inductive Phase where
  | start
  | segment
  | idle
  | finish
deriving DecidableEq, Repr

/-- The phase `RC` selects in a refresh cycle of `R` (30_encoding.md R77), as the chain of 44_display_multiplexer.md R130
tests it. -/
def phaseOf (R rc : Nat) : Phase :=
  if rc = 0 then .start else if rc < spc then .segment else if rc + 2 ≤ R then .idle else .finish

/-- Select RC, on the value at entry to DISPLAY_MUX (30_encoding.md R77). -/
def selectPhase (R rc : Nat) : Instr :=
  match phaseOf R rc with
  | .start => .dmuxStart
  | .segment => .dmuxSegment
  | .idle => .dmuxIdle
  | .finish => .dmuxEnd

end Sys2Proof.Machine
end

