-- ==== Sys2Proof/Machine/Operands.lean ====
section
/-! DEFINITION. The values the operations compute from the named state elements (30_encoding.md R71): saturating increment
and clamp, decimal digits, the cursor's next position, the entry of DisplayDigits, the ROM entry and its bit. -/

namespace Sys2Proof.Machine

/-- `sat_inc_N(v)` (00_scope.md R12). -/
def satInc (n v : Nat) : Nat := if v < 2 ^ n - 1 then v + 1 else v

/-- `min(TALLY, 999)` in the 10 bits of `SPEED` (43_rate_window.md R121, R125). -/
def clampSpeed (tally : Nat) : BitVec 10 := BitVec.ofNat 10 (min tally speedMax)

/-- The digits of `v` (45_digit_decomposer.md R150): hundreds, tens, ones. -/
def digitsOf (v : BitVec 10) : Digits :=
  ⟨BitVec.ofNat 4 (v.toNat / 100), BitVec.ofNat 4 (v.toNat / 10 % 10), BitVec.ofNat 4 (v.toNat % 10)⟩

/-- Entry `i` of DisplayDigits; index 3 does not exist (20_memory.md R51). -/
def digEntry (d : Digits) (i : BitVec 2) : Option Digit :=
  match i.toNat with
  | 0 => some d.d0
  | 1 => some d.d1
  | 2 => some d.d2
  | _ => none

/-- `CUR_D` after ADVANCE (44_display_multiplexer.md R135). -/
def nextCurD (d : BitVec 2) (s : BitVec 3) : BitVec 2 := if s = 7 then BitVec.ofNat 2 ((d.toNat + 1) % ndig) else d

/-- `CUR_S` after ADVANCE (44_display_multiplexer.md R135): 7 is followed by 0. -/
def nextCurS (s : BitVec 3) : BitVec 3 := if s = 7 then 0 else s + 1

/-- `MemRead(a, 1)`: the ROM entry at index `a`, `none` where the index holds nothing (20_memory.md R50). -/
def memRead (c : Cfg) (a : Digit) : Option Pattern :=
  if a.toNat < 10 then (c.segTable[a.toNat]?).map (BitVec.ofNat 8) else none

/-- `p[i]`, bit `i` of a pattern, bit 0 the least significant (00_scope.md R11, 44_display_multiplexer.md R136). -/
def segBit (p : Pattern) (i : BitVec 3) : Level := p.getLsbD i.toNat

end Sys2Proof.Machine
end

