-- ==== Sys2Proof/Machine/Ops.lean ====
section
/-! DEFINITION. The named operations over the state: register writes, `drive` (00_scope.md R15), recording a fault and
refusing (60_exceptions.md R175, R176), entering and leaving an operation (R179, R180), and reset as an event
(70_reset_and_hazards.md R201). -/

namespace Sys2Proof.Machine

/-! Register writes (00_scope.md R13): the whole register at its own width (20_memory.md R55). -/

/-- `TALLY <- v`. -/
def State.setTally (s : State) (v : Nat) : State := { s with tally := v }

/-- `WC <- v`. -/
def State.setWc (s : State) (v : Nat) : State := { s with wc := v }

/-- `SPEED <- v`. -/
def State.setSpeed (s : State) (v : BitVec 10) : State := { s with speed := v }

/-- `(DIG[0], DIG[1], DIG[2]) <- v`, all three together (10_state.md R31). -/
def State.setDig (s : State) (v : Digits) : State := { s with dig := v }

/-- `RC <- v`. -/
def State.setRc (s : State) (v : Nat) : State := { s with rc := v }

/-- `CUR_D <- d`, `CUR_S <- c`. -/
def State.setCursor (s : State) (d : BitVec 2) (c : BitVec 3) : State := { s with curD := d, curS := c }

/-- The ROM read of the step answered `p`. -/
def State.setRomOut (s : State) (p : Pattern) : State := { s with romOut := some p }

/-- The level of a pin. -/
def State.pin (s : State) : Pin → Level
  | .clk => s.clk
  | .stat => s.stat
  | .deN => s.deN
  | .sb => s.sb
  | .sdo => s.sdo

/-- The pin takes a level. -/
def State.setPin (s : State) (p : Pin) (v : Level) : State :=
  match p with
  | .clk => { s with clk := v }
  | .stat => { s with stat := v }
  | .deN => { s with deN := v }
  | .sb => { s with sb := v }
  | .sdo => { s with sdo := v }

/-- A pin event at the end of the step's trace. -/
def State.emit (s : State) (e : PinEvent) : State := { s with trace := s.trace ++ [e] }

/-- `drive(PIN, v)` (00_scope.md R15): an event and the level change when `v` differs from the pin's level, nothing
otherwise. -/
def drive (p : Pin) (v : Level) (s : State) : State := if s.pin p = v then s else (s.setPin p v).emit (p, v)

/-- `settle()` (00_scope.md R13, 44_display_multiplexer.md R133): an ordering point; it writes no state. -/
def settle (s : State) : State := s

/-! Faults and refusals (60_exceptions.md R175, R176). -/

/-- `raise Fault(code)`: `FAULT` is a set that only grows (10_state.md R38). -/
def raise (f : FaultRecord) (s : State) : State := if f ∈ s.faults then s else { s with faults := s.faults ++ [f] }

/-- Every fault of a list, in order. -/
def raiseAll : List FaultRecord → State → State
  | [], s => s
  | f :: fs, s => raiseAll fs (raise f s)

/-- `refuse(reason)`: sets `REFUSED` and changes nothing else (60_exceptions.md R176). -/
def refuse (s : State) : State := { s with refused := true }

/-- The code of a recorded fault (60_exceptions.md R175). -/
def faultCode : FaultRecord → FaultCode
  | .romIndex _ => .romIndex
  | .decompDomain _ => .decompDomain
  | .stateRange _ _ => .stateRange

/-- The number of a fault code (60_exceptions.md R175). -/
def faultNumber : FaultCode → Nat
  | .romIndex => 1
  | .decompDomain => 2
  | .stateRange => 3

/-- One line of the state-range check: the record of element `e` with value `v` unless `v` is below `bound`. -/
def rangeCheck (e : Element) (v bound : Nat) : List FaultRecord := if v < bound then [] else [.stateRange e v]

/-- FLT_STATE_RANGE at step start (60_exceptions.md R175): a record for each element out of its range, in the order R175
lists them. -/
def rangeFaults (s : State) : List FaultRecord :=
  rangeCheck .wc s.wc s.cfg.W ++ rangeCheck .rc s.rc s.cfg.R ++ rangeCheck .curD s.curD.toNat 3
    ++ rangeCheck .dig0 s.dig.d0.toNat 10 ++ rangeCheck .dig1 s.dig.d1.toNat 10 ++ rangeCheck .dig2 s.dig.d2.toNat 10
    ++ rangeCheck .tally s.tally (2 ^ s.cfg.TW)

/-! Entry and return (60_exceptions.md R179, R180). -/

/-- Entry of an operation: it saves nothing, switches no mode and uses no vector (60_exceptions.md R179); the step's outputs
start empty (00_scope.md R15). -/
def enterOperation (s : State) : State := { s with trace := [], romOut := none }

/-- Return from an operation: the end of its step, which restores nothing (60_exceptions.md R180). -/
def leaveOperation (s : State) : State := s

/-- One whole operation (60_exceptions.md R173): the refusal of a bad configuration first (R176, R177), then the state-range
check, which stops the step (R175), then the operation's own effect. -/
def performOperation (body : State → State) (s : State) : State :=
  if ConfigOk s.cfg then
    match rangeFaults s with
    | [] => leaveOperation (body (enterOperation s))
    | f :: fs => raiseAll (f :: fs) (enterOperation s)
  else refuse (enterOperation s)

/-- A micro-operation inside a step (30_encoding.md R75 to R78). A bad configuration refuses it (60_exceptions.md R176); the
step-start check and the emptying of the outputs belong to the step it is part of (notes/assumptions/9.md). -/
def performMicro (body : State → State) (s : State) : State := if ConfigOk s.cfg then body s else refuse s

/-- Reset of a running instance (70_reset_and_hazards.md R201): every element of R200 anew; the configuration is not reset,
and the moves Env has still to present are Env's. -/
def restart (s : State) : State := { State.resetOf s.cfg with env := s.env }

end Sys2Proof.Machine
end

