-- ==== Sys2Proof/Machine/EdgeCounter.lean ====
section
/-! DEFINITION. The Edge Counter (41_edge_counter.md). -/

namespace Sys2Proof.Machine

/-- EDGE (41_edge_counter.md R101): saturating increment of `TALLY`, then toggle of `STAT`. -/
def countEdge (s : State) : State :=
  let s1 := s.setTally (satInc s.cfg.TW s.tally)
  drive .stat (!s1.stat) s1

/-- The meaning of EDGE (41_edge_counter.md R101), one atomic operation (R102). -/
def execEdge (s : State) : Host.Outcome State Fault Refusal := .next (performOperation countEdge s)

end Sys2Proof.Machine
end

