-- ==== Sys2Proof/Machine/DigitDecomposer.lean ====
section
/-! DEFINITION. The Digit Decomposer (45_digit_decomposer.md). -/

namespace Sys2Proof.Machine

/-- DECOMPOSE of `SPEED` into `DIG` (45_digit_decomposer.md R150); out of the domain it records FLT_DECOMP_DOMAIN and leaves
`DIG` unchanged (R151). -/
def decomposeSpeed (s : State) : State :=
  if s.speed.toNat > speedMax then raise (.decompDomain s.speed) s else s.setDig (digitsOf s.speed)

/-- The meaning of DECOMPOSE (45_digit_decomposer.md R150, R151). -/
def execDecompose (s : State) : Host.Outcome State Fault Refusal := .next (performMicro decomposeSpeed s)

end Sys2Proof.Machine
end

