-- ==== Sys2Proof/Machine/SegmentEncoder.lean ====
section
/-! DEFINITION. The Segment Encoder ROM read (46_segment_encoder.md, 20_memory.md R50). -/

namespace Sys2Proof.Machine

/-- The pattern the ROM answers at index `a`: its entry, and 0 where the index holds nothing (20_memory.md R50). -/
def romData (c : Cfg) (a : Digit) : Pattern := (memRead c a).getD 0

/-- SEGLUT at index `a` (46_segment_encoder.md R163): the pattern read is the step's `romOut`; where the index holds nothing
FLT_ROM_INDEX is recorded and the read answers 0 (20_memory.md R50). -/
def segLut (a : Digit) (s : State) : State :=
  match memRead s.cfg a with
  | some p => s.setRomOut p
  | none => raise (.romIndex a) (s.setRomOut 0)

/-- SEGLUT at its operand `DIG[CUR_D]` (46_segment_encoder.md R163). Entry 3 of DIG does not exist: FLT_STATE_RANGE, nothing
read (20_memory.md R51; notes/assumptions/16.md). -/
def segLutAtCursor (s : State) : State :=
  match digEntry s.dig s.curD with
  | some a => segLut a s
  | none => raise (.stateRange .curD s.curD.toNat) s

/-- The meaning of SEGLUT (46_segment_encoder.md R163). -/
def execSeglut (s : State) : Host.Outcome State Fault Refusal := .next (performMicro segLutAtCursor s)

end Sys2Proof.Machine
end

