-- ==== Sys2Proof/Machine/DisplayMux.lean ====
section
/-! DEFINITION. The Display Multiplexer (44_display_multiplexer.md). -/

namespace Sys2Proof.Machine

/-- DMUX_START (44_display_multiplexer.md R131), with the settling point between `DE_N` and `SB` (R133). -/
def dmuxStart (s : State) : State :=
  let s1 := (decomposeSpeed s).setCursor 2 7
  drive .sb true (settle (drive .deN false s1))

/-- ADVANCE (44_display_multiplexer.md R135). -/
def advance (s : State) : State := s.setCursor (nextCurD s.curD s.curS) (nextCurS s.curS)

/-- The read of the ROM at the cursor, and the drive of `SDO` to the bit `CUR_S` of the pattern
(44_display_multiplexer.md R134, R136). `a` is `DIG[CUR_D]`. -/
def shiftOut (a : Digit) (s : State) : State := drive .sdo (segBit (romData s.cfg a) s.curS) (segLut a s)

/-- DMUX_SEGMENT (44_display_multiplexer.md R134): deassert the start bit, ADVANCE, drive the bit. With `CUR_D = 3` it
records FLT_STATE_RANGE and does nothing else (R134, 20_memory.md R51). -/
def dmuxSegment (s : State) : State :=
  if s.curD = 3 then raise (.stateRange .curD s.curD.toNat) s
  else
    let s1 := advance (drive .sb false s)
    match digEntry s1.dig s1.curD with
    | some a => shiftOut a s1
    | none => s1

/-- DMUX_IDLE (44_display_multiplexer.md R137): no action. -/
def dmuxIdle (s : State) : State := s

/-- DMUX_END (44_display_multiplexer.md R138): deassert data-enable. -/
def dmuxEnd (s : State) : State := drive .deN true s

/-- The action of a phase (44_display_multiplexer.md R130). -/
def phaseAction : Phase → State → State
  | .start => dmuxStart
  | .segment => dmuxSegment
  | .idle => dmuxIdle
  | .finish => dmuxEnd

/-- The advance of `RC` (44_display_multiplexer.md R139). -/
def advanceRc (s : State) : State := s.setRc ((s.rc + 1) % s.cfg.R)

/-- DISPLAY_MUX (44_display_multiplexer.md R130): the phase `RC` selects at entry, then the advance of `RC`. -/
def displayMux (s : State) : State := advanceRc (phaseAction (phaseOf s.cfg.R s.rc) s)

/-- The meaning of DMUX_START (44_display_multiplexer.md R131). -/
def execDmuxStart (s : State) : Host.Outcome State Fault Refusal := .next (performMicro dmuxStart s)

/-- The meaning of DMUX_SEGMENT (44_display_multiplexer.md R134). -/
def execDmuxSegment (s : State) : Host.Outcome State Fault Refusal := .next (performMicro dmuxSegment s)

/-- The meaning of DMUX_IDLE (44_display_multiplexer.md R137). -/
def execDmuxIdle (s : State) : Host.Outcome State Fault Refusal := .next (performMicro dmuxIdle s)

/-- The meaning of DMUX_END (44_display_multiplexer.md R138). -/
def execDmuxEnd (s : State) : Host.Outcome State Fault Refusal := .next (performMicro dmuxEnd s)

end Sys2Proof.Machine
end

