-- ==== Sys2Proof/Machine/RateWindow.lean ====
section
/-! DEFINITION. The Rate Window (43_rate_window.md). -/

namespace Sys2Proof.Machine

/-- RW_ROLL (43_rate_window.md R121): capture with the clamp, reset of the tally, reload of the window, in this order. -/
def rwRoll (s : State) : State :=
  let s1 := s.setSpeed (clampSpeed s.tally)
  let s2 := s1.setTally 0
  s2.setWc (s2.cfg.W - 1)

/-- RW_DEC (43_rate_window.md R123). Its condition is `WC != 0`; where it is performed at `WC = 0` the result is outside the
range of the register, and by 00_scope.md R12 the write faults (notes/assumptions/15.md). -/
def rwDec (s : State) : State := if s.wc = 0 then raise (.stateRange .wc s.wc) s else s.setWc (s.wc - 1)

/-- RATE_WINDOW (43_rate_window.md R120, 30_encoding.md R76). -/
def rateWindow (s : State) : State := if s.wc = 0 then rwRoll s else rwDec s

/-- The meaning of RW_ROLL (43_rate_window.md R121). -/
def execRwRoll (s : State) : Host.Outcome State Fault Refusal := .next (performMicro rwRoll s)

/-- The meaning of RW_DEC (43_rate_window.md R123). -/
def execRwDec (s : State) : Host.Outcome State Fault Refusal := .next (performMicro rwDec s)

end Sys2Proof.Machine
end

