-- ==== Sys2Proof/Machine/TickScheduler.lean ====
section
/-! DEFINITION. The Tick Scheduler (42_tick_scheduler.md): TICK, its two internal selects, NOP, and the reserved word. -/

namespace Sys2Proof.Machine

/-- TICK_SKIP, after the toggle (30_encoding.md R75): nothing more this step. -/
def tickSkip (s : State) : State := s

/-- TICK_RUN, after the toggle (30_encoding.md R75): RATE_WINDOW to completion, then DISPLAY_MUX (42_tick_scheduler.md
R113). -/
def tickRun (s : State) : State := displayMux (rateWindow s)

/-- TICK (42_tick_scheduler.md R110): toggle `CLK`; the two processes run when the new level is 0. -/
def schedulerTick (s : State) : State :=
  let s1 := drive .clk (!s.clk) s
  if s1.clk then tickSkip s1 else tickRun s1

/-- NOP (42_tick_scheduler.md R112): the idle wait. -/
def idleWait (s : State) : State := s

/-- The meaning of NOP (42_tick_scheduler.md R112). The state-range check still applies. -/
def execNop (s : State) : Host.Outcome State Fault Refusal := .next (performOperation idleWait s)

/-- The meaning of TICK (42_tick_scheduler.md R110). -/
def execTick (s : State) : Host.Outcome State Fault Refusal := .next (performOperation schedulerTick s)

/-- The meaning of the reserved word (30_encoding.md R73, 60_exceptions.md R176): refused before anything else (R177). -/
def execReserved11 (s : State) : Host.Outcome State Fault Refusal := .next (refuse (enterOperation s))

/-- The meaning of TICK_SKIP (30_encoding.md R75, 42_tick_scheduler.md R111). -/
def execTickSkip (s : State) : Host.Outcome State Fault Refusal := .next (performMicro tickSkip s)

/-- The meaning of TICK_RUN (30_encoding.md R75, 42_tick_scheduler.md R111, R113). -/
def execTickRun (s : State) : Host.Outcome State Fault Refusal := .next (performMicro tickRun s)

end Sys2Proof.Machine
end

