-- ==== Sys2Proof/Machine/Dispatch.lean ====
section
/-! DEFINITION. exec: one arm per operation, each one direct call of its meaning. -/

namespace Sys2Proof.Machine

def exec (i : Instr) (s : State) : Host.Outcome State Fault Refusal :=
  match i with
  | .nop => Sys2Proof.Machine.execNop s
  | .tick => Sys2Proof.Machine.execTick s
  | .edge => Sys2Proof.Machine.execEdge s
  | .reserved11 => Sys2Proof.Machine.execReserved11 s
  | .tickSkip => Sys2Proof.Machine.execTickSkip s
  | .tickRun => Sys2Proof.Machine.execTickRun s
  | .rwRoll => Sys2Proof.Machine.execRwRoll s
  | .rwDec => Sys2Proof.Machine.execRwDec s
  | .dmuxStart => Sys2Proof.Machine.execDmuxStart s
  | .dmuxSegment => Sys2Proof.Machine.execDmuxSegment s
  | .dmuxIdle => Sys2Proof.Machine.execDmuxIdle s
  | .dmuxEnd => Sys2Proof.Machine.execDmuxEnd s
  | .decompose => Sys2Proof.Machine.execDecompose s
  | .seglut => Sys2Proof.Machine.execSeglut s

end Sys2Proof.Machine
end

