-- ==== Sys2Proof/WellFormed.lean ====
section
/-! DEFINITION. Which operations can stand in a sequence of operation words, and which of them Env may present. -/

namespace Sys2Proof

/-- An operation that has an operation word: one of format EV (30_encoding.md R70). An internal row is ill-formed in a
word sequence, since it has no encoding (R78). -/
def WellFormed (i : Instr) : Bool := decide (i.format = .ev)

/-- An operation Env may present (00_scope.md R10): it has a word, and the word is not the reserved one. -/
def Presentable (i : Instr) : Bool := WellFormed i && decide (i ≠ .reserved11)

end Sys2Proof
end

