-- ==== Sys2Proof/Decode.lean ====
section
/-! DEFINITION. The operation word (30_encoding.md R70 to R73): decoder, packed bytes (R81), encoder. -/

namespace Sys2Proof

/-- The operation a 2-bit word spells (30_encoding.md R70). Total: every word is exactly one row (R72). -/
def decodeWord (w : OpWord) : Instr :=
  match w.toNat with
  | 0 => .nop
  | 1 => .tick
  | 2 => .edge
  | _ => .reserved11

/-- Why a decoder answers no operation. -/
inductive DecodeError where
  /-- There is no word to decode: the sequence of words, or of packed bytes, is empty. -/
  | noWord
deriving DecidableEq, Repr

/-- The first operation of a sequence of words, and the words after it. -/
def decode : List OpWord → Except DecodeError (Instr × List OpWord)
  | [] => .error .noWord
  | w :: ws => .ok (decodeWord w, ws)

/-- Every operation of a sequence of words, in order. -/
def decodeAll (ws : List OpWord) : List Instr := ws.map decodeWord

/-- The four words of a packed byte, word 0 in bits 1:0 (30_encoding.md R81). -/
def wordsOfByte (b : Byte) : List OpWord :=
  [b.extractLsb' 0 2, b.extractLsb' 2 2, b.extractLsb' 4 2, b.extractLsb' 6 2]

/-- The words of a packed listing, in program order (30_encoding.md R81). -/
def unpackBytes : List Byte → List OpWord
  | [] => []
  | b :: bs => wordsOfByte b ++ unpackBytes bs

/-- One packed byte from four words (30_encoding.md R81). -/
def byteOfWords (w0 w1 w2 w3 : OpWord) : Byte := w3 ++ w2 ++ w1 ++ w0

/-- The packed bytes of a sequence of words, a final partial byte padded with `00` (30_encoding.md R81). -/
def packBytes : List OpWord → List Byte
  | [] => []
  | [w0] => [byteOfWords w0 0 0 0]
  | [w0, w1] => [byteOfWords w0 w1 0 0]
  | [w0, w1, w2] => [byteOfWords w0 w1 w2 0]
  | w0 :: w1 :: w2 :: w3 :: ws => byteOfWords w0 w1 w2 w3 :: packBytes ws

/-- The first operation of a packed listing, and the words after it. -/
def decodeBytes (bs : List Byte) : Except DecodeError (Instr × List OpWord) := decode (unpackBytes bs)

/-- `n` bytes of a number, its least significant byte first: how a row of `nbits` bits is laid out, word 0 in the lowest
bits of the first byte (30_encoding.md R81). -/
def bytesOfNat : Nat → Nat → List Byte
  | 0, _ => []
  | n + 1, w => BitVec.ofNat 8 w :: bytesOfNat n (w / 256)

/-- The bytes of a table row whose bits are `w`, `nbits` rounded up to whole bytes. -/
def tableBytes (nbits w : Nat) : List Byte := bytesOfNat ((nbits + 7) / 8) (w % 2 ^ nbits)

/-- The operation the decoder reads from an opcode-table row whose bits are `w`, bit 0 the least significant bit of the
operation word. -/
def decodeTableWord (nbits w : Nat) : Option Instr :=
  match decodeBytes (tableBytes nbits w) with
  | .ok (i, _) => some i
  | .error _ => none

/-- The words of an operation (30_encoding.md R70): one word for a row of format EV, none for an internal row, which has
no encoding (R78). -/
def encode : Instr → List OpWord
  | .nop => [0b00]
  | .tick => [0b01]
  | .edge => [0b10]
  | .reserved11 => [0b11]
  | .tickSkip => []
  | .tickRun => []
  | .rwRoll => []
  | .rwDec => []
  | .dmuxStart => []
  | .dmuxSegment => []
  | .dmuxIdle => []
  | .dmuxEnd => []
  | .decompose => []
  | .seglut => []

/-- The words of a sequence of operations, in program order (30_encoding.md R81). -/
def encodeAll : List Instr → List OpWord
  | [] => []
  | i :: is => encode i ++ encodeAll is

end Sys2Proof
end

