-- ==== Sys2Proof/Machine/Input.lean ====
section
/-! DEFINITION. How the next move of Env reaches the TSB (00_scope.md R8, 60_exceptions.md R172), and how a table row's
word is presented. -/

namespace Sys2Proof.Machine

/-- Env's next move (00_scope.md R8), and the moves after it. Where Env presents nothing the step is the idle wait, the word
`00` (42_tick_scheduler.md R112; notes/assumptions/7.md). -/
def nextMove : List EnvMove → EnvMove × List EnvMove
  | [] => (.op 0b00, [])
  | m :: ms => (m, ms)

/-- The moves of Env with the first word of a table row in front (30_encoding.md R81). -/
def presentTableWord (nbits w : Nat) (env : List EnvMove) : List EnvMove :=
  match unpackBytes (tableBytes nbits w) with
  | [] => env
  | op :: _ => .op op :: env

end Sys2Proof.Machine
end

