-- ==== Sys2Proof/Machine/Step.lean ====
section
/-! DEFINITION. One step (00_scope.md R8): the TSB performs the operation Env's next move selects, or starts anew on
reset. -/

namespace Sys2Proof.Machine

/-- One step. The move is taken off Env's list, which is its clearing (60_exceptions.md R172); an operation word selects its
operation directly (R179); reset starts a new run (70_reset_and_hazards.md R201). -/
def step (s : State) : Host.Outcome State Fault Refusal :=
  match nextMove s.env with
  | (.op w, rest) => exec (decodeWord w) { s with env := rest }
  | (.reset, rest) => .next (restart { s with env := rest })

/-- `s` with the operation word of a table row as Env's next move, so that the very next step performs it. -/
def State.withFetchWord (s : State) (nbits w : Nat) : State := { s with env := presentTableWord nbits w s.env }

end Sys2Proof.Machine
end

