-- ==== Sys2Proof/Machine/Program.lean ====
section
/-! DEFINITION. The textual syntax of an event program (30_encoding.md R79), its pseudo-operations (R80), and the bytes it
assembles to (R81). -/

namespace Sys2Proof.Machine

/-- One line of a program: an operation of R79 or a pseudo-operation of R80. -/
inductive ProgramLine where
  /-- `NOP`. -/
  | nop
  /-- `TICK`. -/
  | tick
  /-- `EDGE`. -/
  | edge
  /-- `TICKS n`. -/
  | ticks (n : Nat)
  /-- `EDGES n`. -/
  | edges (n : Nat)
  /-- `QTICK`. -/
  | qtick
  /-- `QTICKS n`. -/
  | qticks (n : Nat)
  /-- `FRAME`. -/
  | frame
  /-- `IDLE n`. -/
  | idle (n : Nat)
deriving DecidableEq, Repr

/-- `QTICKS n` (30_encoding.md R80): `QTICK`, which is two `TICK`, repeated `n` times. -/
def expandQticks : Nat → List Instr
  | 0 => []
  | n + 1 => .tick :: .tick :: expandQticks n

/-- The expansion of a line before decode (30_encoding.md R80). -/
def expandLine (c : Cfg) : ProgramLine → List Instr
  | .nop => [.nop]
  | .tick => [.tick]
  | .edge => [.edge]
  | .ticks n => List.replicate n .tick
  | .edges n => List.replicate n .edge
  | .qtick => expandQticks 1
  | .qticks n => expandQticks n
  | .frame => expandQticks c.R
  | .idle n => List.replicate n .nop

/-- The operations of a program (30_encoding.md R79, R80). -/
def expandProgram (c : Cfg) : List ProgramLine → List Instr
  | [] => []
  | l :: ls => expandLine c l ++ expandProgram c ls

/-- Why a text is no program. -/
inductive AssemblyError where
  /-- A line is neither empty nor one of the lines of R79 and R80. -/
  | badLine
deriving DecidableEq, Repr

/-- A blank inside a line (notes/assumptions/23.md). -/
def isBlank (ch : Char) : Bool := ch = ' ' || ch = '\t' || ch = '\r'

/-- The lines of a text, and the line that is still open at its end. -/
def splitLines : List Char → List Char × List (List Char)
  | [] => ([], [])
  | ch :: rest =>
    match splitLines rest with
    | (line, lines) => if ch = '\n' then ([], line :: lines) else (ch :: line, lines)

/-- A line without its comment, which `;` starts (30_encoding.md R79). -/
def dropComment : List Char → List Char
  | [] => []
  | ch :: rest => if ch = ';' then [] else ch :: dropComment rest

/-- The word a line begins with (empty before a blank), and the words after it. -/
def splitWords : List Char → List Char × List (List Char)
  | [] => ([], [])
  | ch :: rest =>
    match splitWords rest with
    | (word, words) =>
      if isBlank ch then ([], if word = [] then words else word :: words) else (ch :: word, words)

/-- The words of a line. -/
def lineWords (line : List Char) : List (List Char) :=
  match splitWords line with
  | (word, words) => if word = [] then words else word :: words

/-- The value of a decimal digit character. -/
def digitValue (ch : Char) : Option Nat := if '0' ≤ ch ∧ ch ≤ '9' then some (ch.toNat - '0'.toNat) else none

/-- The number a word of decimal digits spells, after the digits already read. -/
def numberFrom (acc : Nat) : List Char → Option Nat
  | [] => some acc
  | ch :: rest =>
    match digitValue ch with
    | some d => numberFrom (acc * 10 + d) rest
    | none => none

/-- The number a word spells: one or more decimal digits. -/
def wordNumber : List Char → Option Nat
  | [] => none
  | word => numberFrom 0 word

/-- A mnemonic with no operand (30_encoding.md R79, R80). -/
def plainLine (word : List Char) : Option ProgramLine :=
  if word = ['N', 'O', 'P'] then some .nop
  else if word = ['T', 'I', 'C', 'K'] then some .tick
  else if word = ['E', 'D', 'G', 'E'] then some .edge
  else if word = ['Q', 'T', 'I', 'C', 'K'] then some .qtick
  else if word = ['F', 'R', 'A', 'M', 'E'] then some .frame
  else none

/-- A pseudo-operation with a count (30_encoding.md R80). -/
def countedLine (word : List Char) (n : Nat) : Option ProgramLine :=
  if word = ['T', 'I', 'C', 'K', 'S'] then some (.ticks n)
  else if word = ['E', 'D', 'G', 'E', 'S'] then some (.edges n)
  else if word = ['Q', 'T', 'I', 'C', 'K', 'S'] then some (.qticks n)
  else if word = ['I', 'D', 'L', 'E'] then some (.idle n)
  else none

/-- One line of text: nothing, or one operation (30_encoding.md R79). -/
def parseLine (line : List Char) : Except AssemblyError (List ProgramLine) :=
  match lineWords (dropComment line) with
  | [] => .ok []
  | [word] =>
    match plainLine word with
    | some l => .ok [l]
    | none => .error .badLine
  | [word, count] =>
    match wordNumber count with
    | some n =>
      match countedLine word n with
      | some l => .ok [l]
      | none => .error .badLine
    | none => .error .badLine
  | _ => .error .badLine

/-- The lines of a program, one after the other. -/
def parseLines : List (List Char) → Except AssemblyError (List ProgramLine)
  | [] => .ok []
  | line :: lines =>
    match parseLine line, parseLines lines with
    | .ok l, .ok ls => .ok (l ++ ls)
    | _, _ => .error .badLine

/-- The program a text spells (30_encoding.md R79). -/
def parseProgram (text : List Char) : Except AssemblyError (List ProgramLine) :=
  match splitLines text with
  | (line, lines) => parseLines (line :: lines)

/-- The packed bytes of the program a text spells (30_encoding.md R79 to R81). -/
def assemble (c : Cfg) (text : List Char) : Except AssemblyError (List Byte) :=
  match parseProgram text with
  | .ok ls => .ok (packBytes (encodeAll (expandProgram c ls)))
  | .error e => .error e

end Sys2Proof.Machine
end

