-- ==== Sys2Proof/Machine/Run.lean ====
section
/-! DEFINITION. A run and what it shows (00_scope.md R9): the traces step by step, and the final state. -/

namespace Sys2Proof.Machine

/-- The operations of a list, one per step, in order (20_memory.md R58). -/
def performAll : List Instr → State → Host.Outcome State Fault Refusal
  | [], s => .next s
  | i :: is, s =>
    match exec i s with
    | .next t => performAll is t
    | .fault f => .fault f
    | .refused r => .refused r

/-- `n` times the same operation. -/
def performTimes (n : Nat) (i : Instr) (s : State) : Host.Outcome State Fault Refusal := performAll (List.replicate n i) s

/-- The observation of a run (00_scope.md R9): the pin events of each step in order, and the final state. -/
def observe : List Instr → State → Host.Outcome (List (List PinEvent) × State) Fault Refusal
  | [], s => .next ([], s)
  | i :: is, s =>
    match exec i s with
    | .next t =>
      match observe is t with
      | .next (traces, u) => .next (t.trace :: traces, u)
      | .fault f => .fault f
      | .refused r => .refused r
    | .fault f => .fault f
    | .refused r => .refused r

/-- The observation of a packed program from the reset state of a configuration (00_scope.md R9, 30_encoding.md R79,
R81). -/
def observeBytes (c : Cfg) (bs : List Byte) : Host.Outcome (List (List PinEvent) × State) Fault Refusal :=
  observe (decodeAll (unpackBytes bs)) (State.resetOf c)

end Sys2Proof.Machine
end

