-- ==== Sys2Proof/Safety.lean ====
section
/-! DEFINITION. What the statements speak of: good final states (10_state.md R38), legal states (60_exceptions.md R175), the
reachable-state invariant (10_state.md R39), the frame invariant (44_display_multiplexer.md R140), traces (00_scope.md R15). -/

namespace Sys2Proof.Machine

/-- A good final state: `FAULT` empty and `REFUSED` false (10_state.md R38). -/
abbrev GoodFinal (s : State) : Prop := s.faults = [] ∧ s.refused = false

/-- Every element FLT_STATE_RANGE checks is in its legal range (60_exceptions.md R175). -/
abbrev Legal (s : State) : Prop :=
  s.wc < s.cfg.W ∧ s.rc < s.cfg.R ∧ s.curD ≠ 3 ∧ s.dig.d0.toNat ≤ 9 ∧ s.dig.d1.toNat ≤ 9 ∧ s.dig.d2.toNat ≤ 9
    ∧ s.tally ≤ s.cfg.tallyMax

/-- A state from which an operation word is performed normally: the configuration keeps the constraints of 00_scope.md R5
and no element is out of its range (60_exceptions.md R175, R176). -/
abbrev Ready (s : State) : Prop := ConfigOk s.cfg ∧ Legal s

/-- The value of an element FLT_STATE_RANGE checks (60_exceptions.md R175). -/
def elementValue (s : State) : Element → Nat
  | .wc => s.wc
  | .rc => s.rc
  | .curD => s.curD.toNat
  | .dig0 => s.dig.d0.toNat
  | .dig1 => s.dig.d1.toNat
  | .dig2 => s.dig.d2.toNat
  | .tally => s.tally

/-- The least illegal value of an element (60_exceptions.md R175): `WC >= W`, `RC >= R`, `CUR_D = 3`, `DIG[i] >= 10`,
`TALLY > 2^TW − 1`. -/
def elementBound (c : Cfg) : Element → Nat
  | .wc => c.W
  | .rc => c.R
  | .curD => 3
  | .dig0 => 10
  | .dig1 => 10
  | .dig2 => 10
  | .tally => 2 ^ c.TW

/-- A FLT_STATE_RANGE record of an element that is out of its range, with its name and value (60_exceptions.md R175). -/
def OutOfRange (s : State) (f : FaultRecord) : Prop :=
  ∃ e, f = .stateRange e (elementValue s e) ∧ elementBound s.cfg e ≤ elementValue s e

/-- What the state-range check leaves when it stops a step (60_exceptions.md R175): FLT_STATE_RANGE is in `FAULT`, and no
other state has changed; the step's outputs are empty. -/
def RangeFault (s t : State) : Prop :=
  t = { s with faults := t.faults, trace := [], romOut := none } ∧ (∀ f ∈ s.faults, f ∈ t.faults) ∧
  (∀ f ∈ t.faults, f ∈ s.faults ∨ OutOfRange s f) ∧ ∃ f ∈ t.faults, OutOfRange s f

/-- The micro-operations a TICK_RUN from `s` is made of (30_encoding.md R75 to R78), with the functions they call. -/
def microOperations (s : State) : List Instr :=
  match selectPhase s.cfg.R s.rc with
  | .dmuxStart => [selectWindow s.wc, .dmuxStart, .decompose]
  | .dmuxSegment => [selectWindow s.wc, .dmuxSegment, .seglut]
  | i => [selectWindow s.wc, i]

/-- Performing `i` in `s` performs the operation `m`: it is `m`, or it is a qualifying TICK or a TICK_RUN, and `m` is one of
the micro-operations the selects choose (30_encoding.md R75 to R78). -/
def Performs (i : Instr) (s : State) (m : Instr) : Prop :=
  i = m ∨ (i = .tickRun ∨ i = .tick ∧ qualifying s = true) ∧ m ∈ microOperations s

/-- The invariant of 10_state.md R39. A qualifying tick has been performed wherever `RC = 1`, so its last part reads
`SB = 1` exactly when `RC = 1`. -/
abbrev Inv (s : State) : Prop :=
  Ready s ∧ s.speed.toNat ≤ speedMax ∧ (s.deN = false ↔ 1 ≤ s.rc ∧ s.rc ≤ s.cfg.R - 1) ∧ (s.sb = true ↔ s.rc = 1)

/-- The bit of the cursor's position in the frame's digits (44_display_multiplexer.md R136). -/
def cursorBit (s : State) : Level := segBit (romData s.cfg ((digEntry s.dig s.curD).getD 0)) s.curS

/-- Where the cursor and `SDO` stand at each value of `RC` (44_display_multiplexer.md R140, R141): at its last position
outside the segment phases, at position `RC − 2` after a segment phase, and `SDO` at the cursor's bit from the first segment
phase to the end of the frame. -/
abbrev FrameInv (s : State) : Prop :=
  (s.rc ≤ 1 ∨ spc ≤ s.rc → s.curD = 2 ∧ s.curS = 7) ∧
  (2 ≤ s.rc ∧ s.rc ≤ spc → nseg * s.curD.toNat + s.curS.toNat + 2 = s.rc) ∧
  (2 ≤ s.rc → s.sdo = cursorBit s)

/-- What the pins become when a trace is played on them; `none` where an entry does not change its pin's level, which no
trace holds (00_scope.md R15). -/
def playTrace (s : State) : List PinEvent → Option State
  | [] => some s
  | (p, v) :: es => if s.pin p = v then none else playTrace (s.setPin p v) es

/-- The qualifying ticks among the TICKs of a list of operations, from a state whose `CLK` level is `clk`: every second
TICK, the first of them where `CLK = 1` (42_tick_scheduler.md R114). -/
def qualifyingTicks (clk : Level) (is : List Instr) : Nat := (is.count .tick + (if clk then 1 else 0)) / 2

/-- The state the outcome goes on with, if it goes on. -/
def nextState (o : Host.Outcome State Fault Refusal) : Option State :=
  match o with
  | .next t => some t
  | .fault _ => none
  | .refused _ => none

end Sys2Proof.Machine
end

