-- ==== Sys2Proof/Certificates/Slice0/Obligations.lean ====
section
/-! DEFINITION. The statements for the provers. Where an equation of a next state ends in `romOut := r` for some `r`, it
leaves the model's own output `romOut` (notes/assumptions/12.md) open: the rule it formalises does not speak of it. -/

open Sys2Proof Sys2Proof.Machine

/-! Words and steps. -/

/-- 30_encoding.md R70: the row each of the four operation words spells. The last two clauses read the words of TICK and EDGE
from a table row of eight bits, laid out as a packed byte of R81; that layout of a table row is the model's choice
(notes/assumptions/24.md). -/
def Obligations.EventWordsSpellTheirOperations : Prop :=
  decodeWord 0b00 = .nop ∧ decodeWord 0b01 = .tick ∧ decodeWord 0b10 = .edge ∧ decodeWord 0b11 = .reserved11 ∧
  decodeTableWord 8 1 = some .tick ∧ decodeTableWord 8 2 = some .edge

/-- 30_encoding.md R72: decoding is total and loses nothing: every word is one row, and encodes back to that word; every
operation that has a word decodes back to itself. -/
def Obligations.EveryWordIsExactlyOneRow : Prop :=
  (∀ w, WellFormed (decodeWord w) = true ∧ encode (decodeWord w) = [w]) ∧
  ∀ i, WellFormed i = true → decode (encode i) = .ok (i, [])

/-- 30_encoding.md R81: a packed program decodes to its own operations, followed by the NOPs that pad its last byte. -/
def Obligations.PackedProgramDecodesToItself : Prop :=
  ∀ is : List Instr, (∀ i ∈ is, WellFormed i = true) →
    decodeAll (unpackBytes (packBytes (encodeAll is))) = is ++ List.replicate ((4 - is.length % 4) % 4) .nop ∧
    (packBytes (encodeAll is)).length = (is.length + 3) / 4

/-- 30_encoding.md R80: what each pseudo-operation expands to. -/
def Obligations.PseudoOperationsExpand : Prop :=
  ∀ (c : Cfg) (n : Nat),
    expandLine c (.ticks n) = List.replicate n .tick ∧ expandLine c (.edges n) = List.replicate n .edge ∧
    expandLine c .qtick = [.tick, .tick] ∧ expandLine c (.qticks n) = List.replicate (2 * n) .tick ∧
    expandLine c .frame = List.replicate (2 * c.R) .tick ∧ expandLine c (.idle n) = List.replicate n .nop

/-- A step performs the operation of the word Env presents, and takes that word off Env's list (00_scope.md R8, 30_encoding.md
R70, 60_exceptions.md R172). Env's list is the model's (notes/assumptions/6.md). -/
def Obligations.StepPerformsThePresentedOperation : Prop :=
  ∀ (s : State) (w : OpWord) (rest : List EnvMove), s.env = .op w :: rest →
    WellFormed (decodeWord w) = true ∧ step s = exec (decodeWord w) { s with env := rest }

/-- A table row's word presented with `withFetchWord` is the one the very next step performs, with every other move of Env
still to come (the model's placement, notes/assumptions/6.md and 24.md). -/
def Obligations.PresentedTableWordIsPerformedNext : Prop :=
  ∀ (s : State) (w : Nat), w < 4 →
    decodeTableWord 8 w = some (decodeWord (BitVec.ofNat 2 w)) ∧
    step (s.withFetchWord 8 w) = exec (decodeWord (BitVec.ofNat 2 w)) s

/-- With nothing presented, a step is the idle wait (the model's choice, notes/assumptions/7.md). -/
def Obligations.StepWithNothingPresentedIsNop : Prop := ∀ s : State, s.env = [] → step s = exec .nop s

/-- 70_reset_and_hazards.md R201: reset sets every element of R22 and makes no pin trace. That reset is a move on Env's list
is the model's choice (notes/assumptions/8.md). -/
def Obligations.ResetMoveStartsANewRun : Prop :=
  ∀ (s : State) (rest : List EnvMove), s.env = .reset :: rest →
    step s = .next { State.resetOf s.cfg with env := rest } ∧ (State.resetOf s.cfg).trace = []

/-- 70_reset_and_hazards.md R200: the reset state, for every configuration, and for the machine's own. The source gives no
reset value, and these are the spec's (notes/assumptions/5.md). -/
def Obligations.ResetStateHoldsTheStatedValues : Prop :=
  (∀ c : Cfg,
    (State.resetOf c).tally = 0 ∧ (State.resetOf c).wc = c.W - 1 ∧ (State.resetOf c).speed = 0 ∧
    (State.resetOf c).dig.d0 = 0 ∧ (State.resetOf c).dig.d1 = 0 ∧ (State.resetOf c).dig.d2 = 0 ∧
    (State.resetOf c).rc = 0 ∧ (State.resetOf c).curD = 2 ∧ (State.resetOf c).curS = 7 ∧
    (State.resetOf c).clk = false ∧ (State.resetOf c).stat = false ∧ (State.resetOf c).deN = true ∧
    (State.resetOf c).sb = false ∧ (State.resetOf c).sdo = false ∧
    (State.resetOf c).faults = [] ∧ (State.resetOf c).refused = false ∧ (State.resetOf c).cfg = c) ∧
  State.reset = State.resetOf State.reset.cfg

/-- Every operation completes in its own step, from every state: no step of the TSB stops the machine (20_memory.md R61,
60_exceptions.md R175, R176, R178; notes/assumptions/14.md). -/
def Obligations.EveryStepCompletes : Prop :=
  (∀ (i : Instr) (s : State), ∃ t, exec i s = .next t) ∧ ∀ s : State, ∃ t, step s = .next t

/-! NOP, EDGE and the reserved word. -/

/-- 42_tick_scheduler.md R112: NOP changes no state and its trace is empty; the state-range check still applies. -/
def Obligations.NopChangesNoState : Prop :=
  decodeWord 0b00 = .nop ∧
  (∀ s : State, Ready s → ∃ r, exec .nop s = .next { s with trace := [], romOut := r }) ∧
  ∀ s : State, ConfigOk s.cfg → ¬Legal s → ∃ t, exec .nop s = .next t ∧ RangeFault s t

/-- 41_edge_counter.md R101: EDGE counts one edge with saturation, toggles STAT, and changes nothing else; the state-range
check still applies. -/
def Obligations.EdgeCountsOneAndTogglesStat : Prop :=
  decodeWord 0b10 = .edge ∧
  (∀ s : State, Ready s → ∃ r, exec .edge s =
    .next { s with
      tally := if s.tally < 2 ^ s.cfg.TW - 1 then s.tally + 1 else s.tally
      stat := !s.stat
      trace := [(.stat, !s.stat)]
      romOut := r }) ∧
  ∀ s : State, ConfigOk s.cfg → ¬Legal s → ∃ t, exec .edge s = .next t ∧ RangeFault s t

/-- 30_encoding.md R73: the reserved word sets REFUSED and changes no other state, in every state. -/
def Obligations.ReservedWordSetsRefused : Prop :=
  decodeWord 0b11 = .reserved11 ∧
  ∀ s : State, ∃ r, exec .reserved11 s = .next { s with refused := true, trace := [], romOut := r }

/-- 60_exceptions.md R176: a configuration that breaks a constraint refuses every operation word, whatever the state, and
the reserved word is refused under every configuration. -/
def Obligations.BadConfigurationRefusesEveryWord : Prop :=
  ∀ (i : Instr) (s : State), WellFormed i = true →
    (i = .reserved11 ∨ s.cfg.W < 1 ∨ s.cfg.R < 26 ∨ s.cfg.TW < 10 ∨ s.cfg.segTable.length ≠ 10 ∨
      ∃ e ∈ s.cfg.segTable, 255 < e) →
    ∃ r, exec i s = .next { s with refused := true, trace := [], romOut := r }

/-! TICK and its selects. -/

/-- 30_encoding.md R75: TICK_SKIP is selected by the new level 1 and does nothing more; TICK_RUN by the new level 0, and is
RATE_WINDOW's operation, then DISPLAY_MUX's, then the advance of RC. -/
def Obligations.ClockSelectsSkipOrRun : Prop :=
  selectClk true = .tickSkip ∧ selectClk false = .tickRun ∧
  (∀ s : State, ConfigOk s.cfg → exec .tickSkip s = .next s) ∧
  ∀ s : State, ConfigOk s.cfg → ∃ s1 s2 : State,
    exec (selectWindow s.wc) s = .next s1 ∧ exec (selectPhase s1.cfg.R s1.rc) s1 = .next s2 ∧
    exec .tickRun s = .next { s2 with rc := (s2.rc + 1) % s2.cfg.R }

/-- 30_encoding.md R76: the rows of select WC. -/
def Obligations.WindowSelectRows : Prop :=
  ∀ wc : Nat, (wc = 0 → selectWindow wc = .rwRoll) ∧ (wc ≠ 0 → selectWindow wc = .rwDec)

/-- 30_encoding.md R77: the rows of select RC are disjoint, cover `0..R−1`, and select the four phases; for `R = 26` the IDLE
row is empty. -/
def Obligations.PhaseSelectRows : Prop :=
  ∀ R rc : Nat, 26 ≤ R → rc < R →
    (rc = 0 ∧ selectPhase R rc = .dmuxStart ∨
      (1 ≤ rc ∧ rc ≤ 24) ∧ selectPhase R rc = .dmuxSegment ∨
      (25 ≤ rc ∧ rc ≤ R - 2) ∧ selectPhase R rc = .dmuxIdle ∨
      rc = R - 1 ∧ selectPhase R rc = .dmuxEnd) ∧
    (R = 26 → selectPhase R rc ≠ .dmuxIdle)

/-- 42_tick_scheduler.md R110: TICK toggles CLK; from CLK = 0 that is all; from CLK = 1 the operation of RATE_WINDOW and then
that of DISPLAY_MUX run on the toggled state and RC advances; the trace starts with the CLK change. -/
def Obligations.TickTogglesThenRunsBothProcesses : Prop :=
  decodeWord 0b01 = .tick ∧
  (∀ s : State, Ready s → s.clk = false →
    ∃ r, exec .tick s = .next { s with clk := true, trace := [(.clk, true)], romOut := r }) ∧
  (∀ s : State, Ready s → s.clk = true → ∃ s1 s2 : State,
    exec (selectWindow s.wc) { s with clk := false, trace := [(.clk, false)], romOut := none } = .next s1 ∧
    exec (selectPhase s1.cfg.R s1.rc) s1 = .next s2 ∧
    exec .tick s = .next { s2 with rc := (s2.rc + 1) % s2.cfg.R } ∧
    s2.clk = false ∧ ∃ es, s2.trace = (.clk, false) :: es) ∧
  ∀ s : State, ConfigOk s.cfg → ¬Legal s → ∃ t, exec .tick s = .next t ∧ RangeFault s t

/-- A rollover and a START on one qualifying tick: the frame shows the value just captured (42_tick_scheduler.md R113,
derived there; vector TK-3). -/
def Obligations.StartOnARolloverShowsTheNewSpeed : Prop :=
  ∀ s : State, Ready s → s.clk = true → s.wc = 0 → s.rc = 0 → ∃ t, exec .tick s = .next t ∧
    t.speed.toNat = min s.tally 999 ∧
    t.dig.d0.toNat * 100 + t.dig.d1.toNat * 10 + t.dig.d2.toNat = min s.tally 999 ∧ t.rc = 1

/-- Every second TICK qualifies (42_tick_scheduler.md R114, derived there): TICK alternates CLK and no other word writes it,
so of two consecutive TICKs exactly one is a qualifying tick; from reset TICK number `k + 1` is one exactly for odd `k`. -/
def Obligations.EverySecondTickQualifies : Prop :=
  (∀ (i : Instr) (s t : State), WellFormed i = true → Ready s → exec i s = .next t →
    t.clk = if i = .tick then !s.clk else s.clk) ∧
  ∀ (c : Cfg) (k : Nat), ConfigOk c → ∃ t, performTimes k .tick (State.resetOf c) = .next t ∧
    (qualifying t = true ↔ k % 2 = 1)

/-! Rate Window. -/

/-- 43_rate_window.md R121: the rollover captures, resets and reloads, and changes nothing else. -/
def Obligations.RolloverCapturesResetsReloads : Prop :=
  selectWindow 0 = .rwRoll ∧
  ∀ s : State, ConfigOk s.cfg →
    exec .rwRoll s = .next { s with speed := BitVec.ofNat 10 (min s.tally 999), tally := 0, wc := s.cfg.W - 1 }

/-- 43_rate_window.md R123: the countdown decrements WC and changes nothing else. -/
def Obligations.WindowCountsDown : Prop :=
  ∀ s : State, ConfigOk s.cfg → s.wc ≠ 0 →
    selectWindow s.wc = .rwDec ∧ exec .rwDec s = .next { s with wc := s.wc - 1 }

/-- Performed at WC = 0, where no select chooses it, RW_DEC records FLT_STATE_RANGE and changes nothing else: the model's
reading of 00_scope.md R12 (notes/assumptions/15.md). -/
def Obligations.WindowCountdownAtZeroFaults : Prop :=
  ∀ s : State, ConfigOk s.cfg → s.wc = 0 → ∃ t, exec .rwDec s = .next t ∧ t = { s with faults := t.faults } ∧
    ∀ f, f ∈ t.faults ↔ f ∈ s.faults ∨ f = .stateRange .wc 0

/-- The value captured is `min(TALLY, 999)` and nothing but a rollover writes SPEED (43_rate_window.md R125), for every
operation and every state. -/
def Obligations.SpeedIsWrittenByRolloversOnly : Prop :=
  ∀ (i : Instr) (s t : State), exec i s = .next t →
    t.speed = s.speed ∨ (Performs i s .rwRoll ∧ t.speed.toNat = min s.tally 999)

/-- The window period (43_rate_window.md R124, derived there): from a state between ticks with CLK = 0, each of the next WC
qualifying ticks only counts down, and the one after them is the rollover. From `WC = W − 1` that is the `W`-th. -/
def Obligations.RolloverComesAfterTheWindow : Prop :=
  ∀ s : State, Ready s → s.clk = false →
    (∀ k, k ≤ s.wc → ∃ t, performTimes (2 * k) .tick s = .next t ∧
      t.wc = s.wc - k ∧ t.speed = s.speed ∧ t.tally = s.tally ∧ t.clk = false) ∧
    ∃ t, performTimes (2 * (s.wc + 1)) .tick s = .next t ∧
      t.wc = s.cfg.W - 1 ∧ t.speed.toNat = min s.tally 999 ∧ t.tally = 0 ∧ t.clk = false

/-- TALLY counts the EDGEs of a window (41_edge_counter.md R104, derived there): through any presentable operations that
hold no rollover it grows by one for each EDGE, saturating at TALLY_MAX, whatever their interleaving. -/
def Obligations.TallyCountsTheEdgesOfAWindow : Prop :=
  ∀ (is : List Instr) (s : State), Ready s → (∀ i ∈ is, Presentable i = true) → qualifyingTicks s.clk is ≤ s.wc →
    ∃ t, performAll is s = .next t ∧
      t.tally = min (s.tally + is.count .edge) s.cfg.tallyMax ∧ t.wc = s.wc - qualifyingTicks s.clk is ∧
      t.speed = s.speed

/-- The capture law (41_edge_counter.md R103, derived there; property S1 and S7 of 95_test_vectors.md): with `N` EDGEs in a
window, in any interleaving, the rollover captures `min(N, 999)`. -/
def Obligations.RolloverCapturesTheEdgesOfTheWindow : Prop :=
  ∀ (is : List Instr) (s : State), Ready s → s.tally = 0 → (∀ i ∈ is, Presentable i = true) →
    qualifyingTicks s.clk is = s.wc → qualifyingTicks s.clk (is ++ [.tick]) = s.wc + 1 →
    ∃ t, performAll (is ++ [.tick]) s = .next t ∧
      t.speed.toNat = min (is.count .edge) 999 ∧ t.tally = 0 ∧ t.wc = s.cfg.W - 1

/-- An EDGE and a TICK at one instant (60_exceptions.md R174): both orders are runs. Where the TICK is no rollover they leave
the same state but for the last step's outputs; where it is one, the edge is counted in the window before or after. -/
def Obligations.CoincidentEdgeAndTickInEitherOrder : Prop :=
  ∀ s : State, Ready s → ∃ t u, performAll [.edge, .tick] s = .next t ∧ performAll [.tick, .edge] s = .next u ∧
    (¬(s.clk = true ∧ s.wc = 0) → u = { t with trace := u.trace, romOut := u.romOut }) ∧
    (s.clk = true ∧ s.wc = 0 → t.speed.toNat = min (min (s.tally + 1) s.cfg.tallyMax) 999 ∧ t.tally = 0 ∧
      u.speed.toNat = min s.tally 999 ∧ u.tally = 1)

/-! Display Multiplexer. -/

/-- 44_display_multiplexer.md R131: START decomposes SPEED, resets the cursor, asserts data-enable and then the start bit,
and changes nothing else; out of the decomposer's domain it records FLT_DECOMP_DOMAIN and does the rest. The levels are
R34's and R35's (notes/assumptions/19.md). -/
def Obligations.StartOpensAFrame : Prop :=
  (∀ s : State, ConfigOk s.cfg → s.speed.toNat ≤ 999 → exec .dmuxStart s =
    .next { s with
      dig := ⟨BitVec.ofNat 4 (s.speed.toNat / 100), BitVec.ofNat 4 (s.speed.toNat / 10 % 10),
        BitVec.ofNat 4 (s.speed.toNat % 10)⟩
      curD := 2
      curS := 7
      deN := false
      sb := true
      trace := s.trace ++ (if s.deN = false then [] else [(.deN, false)]) ++
        (if s.sb = true then [] else [(.sb, true)]) }) ∧
  ∀ s : State, ConfigOk s.cfg → 1000 ≤ s.speed.toNat → ∃ fs, (∀ f, f ∈ fs ↔ f ∈ s.faults ∨ f = .decompDomain s.speed) ∧
    exec .dmuxStart s =
      .next { s with
        faults := fs
        curD := 2
        curS := 7
        deN := false
        sb := true
        trace := s.trace ++ (if s.deN = false then [] else [(.deN, false)]) ++
          (if s.sb = true then [] else [(.sb, true)]) }

/-- Data-enable before the start bit (44_display_multiplexer.md R133, 70_reset_and_hazards.md R206), on a whole START tick
between frames. -/
def Obligations.DataEnableFallsBeforeTheStartBitRises : Prop :=
  ∀ s : State, Inv s → s.clk = true → s.rc = 0 → ∃ t, exec .tick s = .next t ∧
    t.trace = [(.clk, false), (.deN, false), (.sb, true)] ∧ t.sdo = s.sdo ∧ t.curD = 2 ∧ t.curS = 7

/-- 44_display_multiplexer.md R134, R135: SEGMENT deasserts the start bit, advances the cursor segment first and then digit,
and drives the bit at the cursor, bit 0 the least significant, of the pattern of the digit there; nothing else changes. -/
def Obligations.SegmentShiftsOneBit : Prop :=
  ∀ (s : State) (d : BitVec 2) (c : BitVec 3) (a : Digit) (e : Nat), ConfigOk s.cfg → s.curD ≠ 3 →
    (if s.curS = 7 then c = 0 ∧ d.toNat = (s.curD.toNat + 1) % 3 else c.toNat = s.curS.toNat + 1 ∧ d = s.curD) →
    a = (if d = 0 then s.dig.d0 else if d = 1 then s.dig.d1 else s.dig.d2) → s.cfg.segTable[a.toNat]? = some e →
    ∃ r, exec .dmuxSegment s =
      .next { s with
        sb := false
        curD := d
        curS := c
        sdo := e.testBit c.toNat
        trace := s.trace ++ (if s.sb = false then [] else [(.sb, false)]) ++
          (if s.sdo = e.testBit c.toNat then [] else [(.sdo, e.testBit c.toNat)])
        romOut := r }

/-- Where SEGMENT faults (44_display_multiplexer.md R134, 20_memory.md R50, R51): with CUR_D = 3 it records FLT_STATE_RANGE
and changes nothing else; at a digit of 10 or more it records FLT_ROM_INDEX and drives the bit of 0. That the first holds for
the micro-operation by itself is the model's reading (notes/assumptions/16.md). -/
def Obligations.SegmentFaultsOnBadIndices : Prop :=
  (∀ s : State, ConfigOk s.cfg → s.curD = 3 → ∃ t, exec .dmuxSegment s = .next t ∧ t = { s with faults := t.faults } ∧
    ∀ f, f ∈ t.faults ↔ f ∈ s.faults ∨ f = .stateRange .curD 3) ∧
  ∀ (s : State) (a : Digit), ConfigOk s.cfg → s.curD ≠ 3 → digEntry s.dig (nextCurD s.curD s.curS) = some a →
    10 ≤ a.toNat → ∃ t, exec .dmuxSegment s = .next t ∧ t.sdo = false ∧
      (∀ f, f ∈ t.faults ↔ f ∈ s.faults ∨ f = .romIndex a) ∧
      t.curD = nextCurD s.curD s.curS ∧ t.curS = nextCurS s.curS ∧ t.sb = false

/-- 44_display_multiplexer.md R137: IDLE has no action; in its ticks RC advances, CLK is the only pin that changes, and the
cursor and DIG hold. The source is silent here, and the rule is the spec's own (notes/assumptions/17.md). -/
def Obligations.IdleHoldsPinsAndCursor : Prop :=
  (∀ s : State, ConfigOk s.cfg → exec .dmuxIdle s = .next s) ∧
  ∀ s : State, Ready s → s.clk = true → 25 ≤ s.rc → s.rc ≤ s.cfg.R - 2 → ∃ t, exec .tick s = .next t ∧
    t.rc = s.rc + 1 ∧ t.trace = [(.clk, false)] ∧ t.deN = s.deN ∧ t.sb = s.sb ∧ t.sdo = s.sdo ∧ t.stat = s.stat ∧
    t.curD = s.curD ∧ t.curS = s.curS ∧ t.dig = s.dig

/-- 44_display_multiplexer.md R138: END deasserts data-enable and changes nothing else; in its tick RC wraps to 0. -/
def Obligations.EndClosesTheFrame : Prop :=
  (∀ s : State, ConfigOk s.cfg →
    exec .dmuxEnd s =
      .next { s with deN := true, trace := s.trace ++ (if s.deN = true then [] else [(.deN, true)]) }) ∧
  ∀ s : State, Ready s → s.clk = true → s.rc = s.cfg.R - 1 → ∃ t, exec .tick s = .next t ∧
    t.rc = 0 ∧ t.deN = true ∧ t.sb = s.sb ∧ t.sdo = s.sdo ∧ t.curD = s.curD ∧ t.curS = s.curS ∧ t.dig = s.dig ∧
    t.trace = (.clk, false) :: (if s.deN = true then [] else [(.deN, true)])

/-- 44_display_multiplexer.md R139: RC advances by one modulo R in every qualifying tick and in no other step, from every
state and for every operation word. -/
def Obligations.RcAdvancesInQualifyingTicksOnly : Prop :=
  ∀ (i : Instr) (s t : State), WellFormed i = true → exec i s = .next t →
    t.rc = if i = .tick ∧ s.clk = true ∧ Ready s then (s.rc + 1) % s.cfg.R else s.rc

/-- DIG changes only at START, to the digits of the SPEED that tick leaves (44_display_multiplexer.md R132,
70_reset_and_hazards.md R208). -/
def Obligations.DigitsChangeOnlyAtFrameStart : Prop :=
  ∀ (i : Instr) (s t : State), WellFormed i = true → Ready s → exec i s = .next t →
    t.dig = if i = .tick ∧ s.clk = true ∧ s.rc = 0 ∧ t.speed.toNat ≤ 999 then digitsOf t.speed else s.dig

/-- DE_N, SB and SDO change only in qualifying ticks, after the falling CLK edge of the same step (42_tick_scheduler.md R115,
44_display_multiplexer.md R142, 70_reset_and_hazards.md R209, derived there). -/
def Obligations.FrameOutputsChangeAfterFallingClockEdges : Prop :=
  ∀ (i : Instr) (s t : State), WellFormed i = true → Ready s → exec i s = .next t →
    (¬(i = .tick ∧ s.clk = true) →
      t.deN = s.deN ∧ t.sb = s.sb ∧ t.sdo = s.sdo ∧
      ∀ e ∈ t.trace, e = (.clk, true) ∨ e = (.stat, !s.stat)) ∧
    (i = .tick ∧ s.clk = true →
      ∃ es, t.trace = (.clk, false) :: es ∧ ∀ e ∈ es, e.1 = .deN ∨ e.1 = .sb ∨ e.1 = .sdo)

/-- The frame timeline (44_display_multiplexer.md R140, derived there): from a state between frames (`RC = 0`, `CLK = 0`),
what RC, DE_N, SB, DIG and SDO are after qualifying tick `j` of the refresh cycle. -/
def Obligations.FrameTimeline : Prop :=
  ∀ (s : State) (j : Nat), Inv s → s.clk = false → s.rc = 0 → j < s.cfg.R →
    ∃ t, performTimes (2 * (j + 1)) .tick s = .next t ∧
      t.rc = (j + 1) % s.cfg.R ∧ (t.deN = true ↔ j = s.cfg.R - 1) ∧ (t.sb = true ↔ j = 0) ∧
      t.dig = digitsOf (if s.wc = 0 then BitVec.ofNat 10 (min s.tally 999) else s.speed) ∧
      (j = 0 → t.sdo = s.sdo) ∧
      (1 ≤ j → ∃ a e, digEntry t.dig (BitVec.ofNat 2 (min (j - 1) 23 / 8)) = some a ∧
        s.cfg.segTable[a.toNat]? = some e ∧ t.sdo = e.testBit (min (j - 1) 23 % 8))

/-- The visit order (44_display_multiplexer.md R141, derived there): the segment ticks `j = 1..24` of a refresh cycle leave
the cursor at `(0,0), (0,1), …, (2,7)`, each of the 24 positions once and in this order. -/
def Obligations.CursorVisitsEveryPositionOnce : Prop :=
  ∀ (s : State) (j : Nat), Ready s → s.clk = false → s.rc = 0 → 1 ≤ j → j ≤ 24 →
    ∃ t, performTimes (2 * (j + 1)) .tick s = .next t ∧
      t.curD.toNat = (j - 1) / 8 ∧ t.curS.toNat = (j - 1) % 8

/-! Digit Decomposer and Segment Encoder. -/

/-- 45_digit_decomposer.md R150: DECOMPOSE writes the three decimal digits of SPEED, each at most 9, which give SPEED back,
and changes nothing else. -/
def Obligations.DecomposeWritesTheDecimalDigits : Prop :=
  (∀ s : State, ConfigOk s.cfg → s.speed.toNat ≤ 999 → ∃ d : Digits, exec .decompose s = .next { s with dig := d } ∧
    d.d0.toNat = s.speed.toNat / 100 ∧ d.d1.toNat = s.speed.toNat / 10 % 10 ∧ d.d2.toNat = s.speed.toNat % 10 ∧
    d.d0.toNat ≤ 9 ∧ d.d1.toNat ≤ 9 ∧ d.d2.toNat ≤ 9 ∧
    d.d0.toNat * 100 + d.d1.toNat * 10 + d.d2.toNat = s.speed.toNat) ∧
  ∀ s : State, ConfigOk s.cfg → 999 < s.speed.toNat → ∃ fs, (∀ f, f ∈ fs ↔ f ∈ s.faults ∨ f = .decompDomain s.speed) ∧
    exec .decompose s = .next { s with faults := fs }

/-- The decomposition is a bijection from 0..999 to the digit triples (45_digit_decomposer.md R152, derived there). -/
def Obligations.DecompositionIsABijection : Prop :=
  ∀ d : Digits, d.d0.toNat ≤ 9 → d.d1.toNat ≤ 9 → d.d2.toNat ≤ 9 →
    ∃ v : BitVec 10, (v.toNat ≤ 999 ∧ digitsOf v = d) ∧ ∀ u : BitVec 10, u.toNat ≤ 999 → digitsOf u = d → u = v

/-- SEGLUT answers the entry of SEG_TABLE at `DIG[CUR_D]` and changes nothing else (46_segment_encoder.md R163, 20_memory.md
R50); at 10 and above it records FLT_ROM_INDEX and answers 0; with CUR_D = 3 it records FLT_STATE_RANGE. The answer's place,
`romOut`, is the model's (notes/assumptions/12.md), and so is the last clause (16.md). -/
def Obligations.SeglutAnswersTheRomEntry : Prop :=
  (∀ (s : State) (a : Digit) (e : Nat), ConfigOk s.cfg → digEntry s.dig s.curD = some a →
    s.cfg.segTable[a.toNat]? = some e → exec .seglut s = .next { s with romOut := some (BitVec.ofNat 8 e) }) ∧
  (∀ (s : State) (a : Digit), ConfigOk s.cfg → digEntry s.dig s.curD = some a → 10 ≤ a.toNat →
    ∃ fs, (∀ f, f ∈ fs ↔ f ∈ s.faults ∨ f = .romIndex a) ∧
      exec .seglut s = .next { s with faults := fs, romOut := some 0 }) ∧
  ∀ s : State, ConfigOk s.cfg → s.curD = 3 → ∃ fs, (∀ f, f ∈ fs ↔ f ∈ s.faults ∨ f = .stateRange .curD 3) ∧
    exec .seglut s = .next { s with faults := fs }

/-- The default patterns, and the serial order of their bits, bit 0 first (46_segment_encoder.md R161, which the spec takes
from general knowledge; notes/assumptions/3.md). -/
def Obligations.DefaultPatternsAndTheirSerialOrder : Prop :=
  ((List.range 10).map fun a => romData State.reset.cfg (BitVec.ofNat 4 a)) =
    [0x3F, 0x06, 0x5B, 0x4F, 0x66, 0x6D, 0x7D, 0x07, 0x7F, 0x6F] ∧
  ((List.range 8).map fun b => segBit (romData State.reset.cfg 2) (BitVec.ofNat 3 b)) =
    [true, true, false, true, true, false, true, false] ∧
  ((List.range 8).map fun b => segBit (romData State.reset.cfg 4) (BitVec.ofNat 3 b)) =
    [false, true, true, false, false, true, true, false]

/-! Faults, refusals, traces, writers. -/

/-- 60_exceptions.md R175: a state out of its range stops NOP, TICK and EDGE with FLT_STATE_RANGE and no other change; FAULT
is never cleared by an operation; the codes have their numbers. -/
def Obligations.IllegalStateRecordsStateRange : Prop :=
  (∀ (i : Instr) (s : State), Presentable i = true → ConfigOk s.cfg → ¬Legal s →
    ∃ t, exec i s = .next t ∧ RangeFault s t) ∧
  (∀ (i : Instr) (s t : State), exec i s = .next t → ∀ f ∈ s.faults, f ∈ t.faults) ∧
  faultNumber .romIndex = 1 ∧ faultNumber .decompDomain = 2 ∧ faultNumber .stateRange = 3

/-- FAULT only grows and REFUSED is never cleared, by any operation from any state (10_state.md R38). -/
def Obligations.FaultAndRefusedNeverClear : Prop :=
  ∀ (i : Instr) (s t : State), exec i s = .next t →
    (∀ f ∈ s.faults, f ∈ t.faults) ∧ (s.refused = true → t.refused = true)

/-- 60_exceptions.md R177: the faults a step records are all of one code, and a refused step records none. -/
def Obligations.OneFaultCodeAStepAndNoneWhenRefused : Prop :=
  ∀ (i : Instr) (s t : State), WellFormed i = true → exec i s = .next t →
    (∃ k, ∀ f ∈ t.faults, f ∈ s.faults ∨ faultCode f = k) ∧
    (i = .reserved11 ∨ ¬ConfigOk s.cfg → t.faults = s.faults)

/-- From a state of the invariant, a step on anything but the reserved word records no fault and no refusal (60_exceptions.md
R175 "No code is raised by a legal state"). -/
def Obligations.ReachableStatesRecordNoFault : Prop :=
  ∀ s t : State, Inv s → GoodFinal s → s.env.head? ≠ some (.op 0b11) → step s = .next t → GoodFinal t

/-- 00_scope.md R15: a step's trace, played on the pins as they were, changes a level at every entry and leads to the pins as
they are after it. A micro-operation appends its events to the trace of its step. -/
def Obligations.TraceIsTheLevelChanges : Prop :=
  ∀ (i : Instr) (s t : State), exec i s = .next t →
    ∃ es u, t.trace = (if WellFormed i = true then [] else s.trace) ++ es ∧ playTrace s es = some u ∧
      ∀ p, u.pin p = t.pin p

/-- 20_memory.md R64, with the writers 10_state.md R22 lists: whatever element differs after an operation, the operation
performed one of its writers; and no operation writes the configuration or Env's moves. -/
def Obligations.OnlyTheListedWritersWrite : Prop :=
  ∀ (i : Instr) (s t : State), exec i s = .next t →
    (t.tally ≠ s.tally → i = .edge ∨ Performs i s .rwRoll) ∧
    (t.wc ≠ s.wc → Performs i s .rwRoll ∨ Performs i s .rwDec) ∧
    (t.speed ≠ s.speed → Performs i s .rwRoll) ∧
    (t.dig ≠ s.dig → Performs i s .dmuxStart ∨ i = .decompose) ∧
    (t.rc ≠ s.rc → i = .tickRun ∨ i = .tick ∧ qualifying s = true) ∧
    (t.curD ≠ s.curD ∨ t.curS ≠ s.curS → Performs i s .dmuxStart ∨ Performs i s .dmuxSegment) ∧
    (t.clk ≠ s.clk → i = .tick) ∧
    (t.stat ≠ s.stat → i = .edge) ∧
    (t.deN ≠ s.deN → Performs i s .dmuxStart ∨ Performs i s .dmuxEnd) ∧
    (t.sb ≠ s.sb → Performs i s .dmuxStart ∨ Performs i s .dmuxSegment) ∧
    (t.sdo ≠ s.sdo → Performs i s .dmuxSegment) ∧
    t.cfg = s.cfg ∧ t.env = s.env

/-- 00_scope.md R7: the derived widths are the least that hold every legal value: `ceil(log2 n)`, and 1 for a modulus of 1; 6
bits for R = 38. -/
def Obligations.CounterWidthsAreCeilLogTwo : Prop :=
  (∀ n, 2 ≤ n → n ≤ 2 ^ modulusWidth n ∧ 2 ^ (modulusWidth n - 1) < n) ∧ modulusWidth 1 = 1 ∧
  (∀ c : Cfg, wcWidth c = modulusWidth c.W ∧ rcWidth c = modulusWidth c.R) ∧ modulusWidth 38 = 6

/-! Invariants. -/

/-- The invariants hold in the reset state of every good configuration, and in the machine's own (10_state.md R39, derived
there; the configuration is notes/assumptions/2.md). -/
def Obligations.ResetMeetsTheInvariants : Prop :=
  (∀ c : Cfg, ConfigOk c → Inv (State.resetOf c) ∧ FrameInv (State.resetOf c) ∧ GoodFinal (State.resetOf c)) ∧
  Inv State.reset ∧ FrameInv State.reset

/-- The invariant of 10_state.md R39 (derived there) is kept by every step, from every state that meets it. -/
def Obligations.EveryStepKeepsTheInvariant : Prop :=
  ∀ s t : State, Inv s → step s = .next t → Inv t

/-- Where the cursor and SDO stand in a frame (44_display_multiplexer.md R140, R141, derived there) is kept by every step. -/
def Obligations.EveryStepKeepsTheFrame : Prop :=
  ∀ s t : State, Inv s → FrameInv s → step s = .next t → FrameInv t
end

