-- ==== Sys2Proof/Laws/StateOutputs.lean ====
section
/-! SUPPORT. The fields of the state after a cursor write, an output of the step, a refusal and the entry of an operation: one
lemma per field per update. -/

namespace Sys2Proof.Machine

/-! The fields after `State.setCursor`. -/

@[simp] theorem State.setCursor_cfg (s : State) (d : BitVec 2) (c : BitVec 3) : (s.setCursor d c).cfg = s.cfg := rfl
@[simp] theorem State.setCursor_tally (s : State) (d : BitVec 2) (c : BitVec 3) : (s.setCursor d c).tally = s.tally := rfl
@[simp] theorem State.setCursor_wc (s : State) (d : BitVec 2) (c : BitVec 3) : (s.setCursor d c).wc = s.wc := rfl
@[simp] theorem State.setCursor_speed (s : State) (d : BitVec 2) (c : BitVec 3) : (s.setCursor d c).speed = s.speed := rfl
@[simp] theorem State.setCursor_dig (s : State) (d : BitVec 2) (c : BitVec 3) : (s.setCursor d c).dig = s.dig := rfl
@[simp] theorem State.setCursor_rc (s : State) (d : BitVec 2) (c : BitVec 3) : (s.setCursor d c).rc = s.rc := rfl
@[simp] theorem State.setCursor_curD (s : State) (d : BitVec 2) (c : BitVec 3) : (s.setCursor d c).curD = d := rfl
@[simp] theorem State.setCursor_curS (s : State) (d : BitVec 2) (c : BitVec 3) : (s.setCursor d c).curS = c := rfl
@[simp] theorem State.setCursor_clk (s : State) (d : BitVec 2) (c : BitVec 3) : (s.setCursor d c).clk = s.clk := rfl
@[simp] theorem State.setCursor_stat (s : State) (d : BitVec 2) (c : BitVec 3) : (s.setCursor d c).stat = s.stat := rfl
@[simp] theorem State.setCursor_deN (s : State) (d : BitVec 2) (c : BitVec 3) : (s.setCursor d c).deN = s.deN := rfl
@[simp] theorem State.setCursor_sb (s : State) (d : BitVec 2) (c : BitVec 3) : (s.setCursor d c).sb = s.sb := rfl
@[simp] theorem State.setCursor_sdo (s : State) (d : BitVec 2) (c : BitVec 3) : (s.setCursor d c).sdo = s.sdo := rfl
@[simp] theorem State.setCursor_faults (s : State) (d : BitVec 2) (c : BitVec 3) : (s.setCursor d c).faults = s.faults := rfl
@[simp] theorem State.setCursor_refused (s : State) (d : BitVec 2) (c : BitVec 3) : (s.setCursor d c).refused = s.refused := rfl
@[simp] theorem State.setCursor_trace (s : State) (d : BitVec 2) (c : BitVec 3) : (s.setCursor d c).trace = s.trace := rfl
@[simp] theorem State.setCursor_romOut (s : State) (d : BitVec 2) (c : BitVec 3) : (s.setCursor d c).romOut = s.romOut := rfl
@[simp] theorem State.setCursor_env (s : State) (d : BitVec 2) (c : BitVec 3) : (s.setCursor d c).env = s.env := rfl

/-! The fields after `State.setRomOut`. -/

@[simp] theorem State.setRomOut_cfg (s : State) (p : Pattern) : (s.setRomOut p).cfg = s.cfg := rfl
@[simp] theorem State.setRomOut_tally (s : State) (p : Pattern) : (s.setRomOut p).tally = s.tally := rfl
@[simp] theorem State.setRomOut_wc (s : State) (p : Pattern) : (s.setRomOut p).wc = s.wc := rfl
@[simp] theorem State.setRomOut_speed (s : State) (p : Pattern) : (s.setRomOut p).speed = s.speed := rfl
@[simp] theorem State.setRomOut_dig (s : State) (p : Pattern) : (s.setRomOut p).dig = s.dig := rfl
@[simp] theorem State.setRomOut_rc (s : State) (p : Pattern) : (s.setRomOut p).rc = s.rc := rfl
@[simp] theorem State.setRomOut_curD (s : State) (p : Pattern) : (s.setRomOut p).curD = s.curD := rfl
@[simp] theorem State.setRomOut_curS (s : State) (p : Pattern) : (s.setRomOut p).curS = s.curS := rfl
@[simp] theorem State.setRomOut_clk (s : State) (p : Pattern) : (s.setRomOut p).clk = s.clk := rfl
@[simp] theorem State.setRomOut_stat (s : State) (p : Pattern) : (s.setRomOut p).stat = s.stat := rfl
@[simp] theorem State.setRomOut_deN (s : State) (p : Pattern) : (s.setRomOut p).deN = s.deN := rfl
@[simp] theorem State.setRomOut_sb (s : State) (p : Pattern) : (s.setRomOut p).sb = s.sb := rfl
@[simp] theorem State.setRomOut_sdo (s : State) (p : Pattern) : (s.setRomOut p).sdo = s.sdo := rfl
@[simp] theorem State.setRomOut_faults (s : State) (p : Pattern) : (s.setRomOut p).faults = s.faults := rfl
@[simp] theorem State.setRomOut_refused (s : State) (p : Pattern) : (s.setRomOut p).refused = s.refused := rfl
@[simp] theorem State.setRomOut_trace (s : State) (p : Pattern) : (s.setRomOut p).trace = s.trace := rfl
@[simp] theorem State.setRomOut_romOut (s : State) (p : Pattern) : (s.setRomOut p).romOut = some p := rfl
@[simp] theorem State.setRomOut_env (s : State) (p : Pattern) : (s.setRomOut p).env = s.env := rfl

/-! The fields after `State.emit`. -/

@[simp] theorem State.emit_cfg (s : State) (e : PinEvent) : (s.emit e).cfg = s.cfg := rfl
@[simp] theorem State.emit_tally (s : State) (e : PinEvent) : (s.emit e).tally = s.tally := rfl
@[simp] theorem State.emit_wc (s : State) (e : PinEvent) : (s.emit e).wc = s.wc := rfl
@[simp] theorem State.emit_speed (s : State) (e : PinEvent) : (s.emit e).speed = s.speed := rfl
@[simp] theorem State.emit_dig (s : State) (e : PinEvent) : (s.emit e).dig = s.dig := rfl
@[simp] theorem State.emit_rc (s : State) (e : PinEvent) : (s.emit e).rc = s.rc := rfl
@[simp] theorem State.emit_curD (s : State) (e : PinEvent) : (s.emit e).curD = s.curD := rfl
@[simp] theorem State.emit_curS (s : State) (e : PinEvent) : (s.emit e).curS = s.curS := rfl
@[simp] theorem State.emit_clk (s : State) (e : PinEvent) : (s.emit e).clk = s.clk := rfl
@[simp] theorem State.emit_stat (s : State) (e : PinEvent) : (s.emit e).stat = s.stat := rfl
@[simp] theorem State.emit_deN (s : State) (e : PinEvent) : (s.emit e).deN = s.deN := rfl
@[simp] theorem State.emit_sb (s : State) (e : PinEvent) : (s.emit e).sb = s.sb := rfl
@[simp] theorem State.emit_sdo (s : State) (e : PinEvent) : (s.emit e).sdo = s.sdo := rfl
@[simp] theorem State.emit_faults (s : State) (e : PinEvent) : (s.emit e).faults = s.faults := rfl
@[simp] theorem State.emit_refused (s : State) (e : PinEvent) : (s.emit e).refused = s.refused := rfl
@[simp] theorem State.emit_trace (s : State) (e : PinEvent) : (s.emit e).trace = s.trace ++ [e] := rfl
@[simp] theorem State.emit_romOut (s : State) (e : PinEvent) : (s.emit e).romOut = s.romOut := rfl
@[simp] theorem State.emit_env (s : State) (e : PinEvent) : (s.emit e).env = s.env := rfl

/-! The fields after `refuse`. -/

@[simp] theorem refuse_cfg (s : State) : (refuse s).cfg = s.cfg := rfl
@[simp] theorem refuse_tally (s : State) : (refuse s).tally = s.tally := rfl
@[simp] theorem refuse_wc (s : State) : (refuse s).wc = s.wc := rfl
@[simp] theorem refuse_speed (s : State) : (refuse s).speed = s.speed := rfl
@[simp] theorem refuse_dig (s : State) : (refuse s).dig = s.dig := rfl
@[simp] theorem refuse_rc (s : State) : (refuse s).rc = s.rc := rfl
@[simp] theorem refuse_curD (s : State) : (refuse s).curD = s.curD := rfl
@[simp] theorem refuse_curS (s : State) : (refuse s).curS = s.curS := rfl
@[simp] theorem refuse_clk (s : State) : (refuse s).clk = s.clk := rfl
@[simp] theorem refuse_stat (s : State) : (refuse s).stat = s.stat := rfl
@[simp] theorem refuse_deN (s : State) : (refuse s).deN = s.deN := rfl
@[simp] theorem refuse_sb (s : State) : (refuse s).sb = s.sb := rfl
@[simp] theorem refuse_sdo (s : State) : (refuse s).sdo = s.sdo := rfl
@[simp] theorem refuse_faults (s : State) : (refuse s).faults = s.faults := rfl
@[simp] theorem refuse_refused (s : State) : (refuse s).refused = true := rfl
@[simp] theorem refuse_trace (s : State) : (refuse s).trace = s.trace := rfl
@[simp] theorem refuse_romOut (s : State) : (refuse s).romOut = s.romOut := rfl
@[simp] theorem refuse_env (s : State) : (refuse s).env = s.env := rfl

/-! The fields after `enterOperation`. -/

@[simp] theorem enterOperation_cfg (s : State) : (enterOperation s).cfg = s.cfg := rfl
@[simp] theorem enterOperation_tally (s : State) : (enterOperation s).tally = s.tally := rfl
@[simp] theorem enterOperation_wc (s : State) : (enterOperation s).wc = s.wc := rfl
@[simp] theorem enterOperation_speed (s : State) : (enterOperation s).speed = s.speed := rfl
@[simp] theorem enterOperation_dig (s : State) : (enterOperation s).dig = s.dig := rfl
@[simp] theorem enterOperation_rc (s : State) : (enterOperation s).rc = s.rc := rfl
@[simp] theorem enterOperation_curD (s : State) : (enterOperation s).curD = s.curD := rfl
@[simp] theorem enterOperation_curS (s : State) : (enterOperation s).curS = s.curS := rfl
@[simp] theorem enterOperation_clk (s : State) : (enterOperation s).clk = s.clk := rfl
@[simp] theorem enterOperation_stat (s : State) : (enterOperation s).stat = s.stat := rfl
@[simp] theorem enterOperation_deN (s : State) : (enterOperation s).deN = s.deN := rfl
@[simp] theorem enterOperation_sb (s : State) : (enterOperation s).sb = s.sb := rfl
@[simp] theorem enterOperation_sdo (s : State) : (enterOperation s).sdo = s.sdo := rfl
@[simp] theorem enterOperation_faults (s : State) : (enterOperation s).faults = s.faults := rfl
@[simp] theorem enterOperation_refused (s : State) : (enterOperation s).refused = s.refused := rfl
@[simp] theorem enterOperation_trace (s : State) : (enterOperation s).trace = [] := rfl
@[simp] theorem enterOperation_romOut (s : State) : (enterOperation s).romOut = none := rfl
@[simp] theorem enterOperation_env (s : State) : (enterOperation s).env = s.env := rfl

/-! `settle` and `leaveOperation` write no state. -/

@[simp] theorem settle_eq (s : State) : settle s = s := rfl
@[simp] theorem leaveOperation_eq (s : State) : leaveOperation s = s := rfl

end Sys2Proof.Machine
end

