-- ==== Sys2Proof/Laws/StateRegisters.lean ====
section
/-! SUPPORT. The fields of the state after each write of a counter or value register: one lemma per field per update. -/

namespace Sys2Proof.Machine

/-! The fields after `State.setTally`. -/

@[simp] theorem State.setTally_cfg (s : State) (v : Nat) : (s.setTally v).cfg = s.cfg := rfl
@[simp] theorem State.setTally_tally (s : State) (v : Nat) : (s.setTally v).tally = v := rfl
@[simp] theorem State.setTally_wc (s : State) (v : Nat) : (s.setTally v).wc = s.wc := rfl
@[simp] theorem State.setTally_speed (s : State) (v : Nat) : (s.setTally v).speed = s.speed := rfl
@[simp] theorem State.setTally_dig (s : State) (v : Nat) : (s.setTally v).dig = s.dig := rfl
@[simp] theorem State.setTally_rc (s : State) (v : Nat) : (s.setTally v).rc = s.rc := rfl
@[simp] theorem State.setTally_curD (s : State) (v : Nat) : (s.setTally v).curD = s.curD := rfl
@[simp] theorem State.setTally_curS (s : State) (v : Nat) : (s.setTally v).curS = s.curS := rfl
@[simp] theorem State.setTally_clk (s : State) (v : Nat) : (s.setTally v).clk = s.clk := rfl
@[simp] theorem State.setTally_stat (s : State) (v : Nat) : (s.setTally v).stat = s.stat := rfl
@[simp] theorem State.setTally_deN (s : State) (v : Nat) : (s.setTally v).deN = s.deN := rfl
@[simp] theorem State.setTally_sb (s : State) (v : Nat) : (s.setTally v).sb = s.sb := rfl
@[simp] theorem State.setTally_sdo (s : State) (v : Nat) : (s.setTally v).sdo = s.sdo := rfl
@[simp] theorem State.setTally_faults (s : State) (v : Nat) : (s.setTally v).faults = s.faults := rfl
@[simp] theorem State.setTally_refused (s : State) (v : Nat) : (s.setTally v).refused = s.refused := rfl
@[simp] theorem State.setTally_trace (s : State) (v : Nat) : (s.setTally v).trace = s.trace := rfl
@[simp] theorem State.setTally_romOut (s : State) (v : Nat) : (s.setTally v).romOut = s.romOut := rfl
@[simp] theorem State.setTally_env (s : State) (v : Nat) : (s.setTally v).env = s.env := rfl

/-! The fields after `State.setWc`. -/

@[simp] theorem State.setWc_cfg (s : State) (v : Nat) : (s.setWc v).cfg = s.cfg := rfl
@[simp] theorem State.setWc_tally (s : State) (v : Nat) : (s.setWc v).tally = s.tally := rfl
@[simp] theorem State.setWc_wc (s : State) (v : Nat) : (s.setWc v).wc = v := rfl
@[simp] theorem State.setWc_speed (s : State) (v : Nat) : (s.setWc v).speed = s.speed := rfl
@[simp] theorem State.setWc_dig (s : State) (v : Nat) : (s.setWc v).dig = s.dig := rfl
@[simp] theorem State.setWc_rc (s : State) (v : Nat) : (s.setWc v).rc = s.rc := rfl
@[simp] theorem State.setWc_curD (s : State) (v : Nat) : (s.setWc v).curD = s.curD := rfl
@[simp] theorem State.setWc_curS (s : State) (v : Nat) : (s.setWc v).curS = s.curS := rfl
@[simp] theorem State.setWc_clk (s : State) (v : Nat) : (s.setWc v).clk = s.clk := rfl
@[simp] theorem State.setWc_stat (s : State) (v : Nat) : (s.setWc v).stat = s.stat := rfl
@[simp] theorem State.setWc_deN (s : State) (v : Nat) : (s.setWc v).deN = s.deN := rfl
@[simp] theorem State.setWc_sb (s : State) (v : Nat) : (s.setWc v).sb = s.sb := rfl
@[simp] theorem State.setWc_sdo (s : State) (v : Nat) : (s.setWc v).sdo = s.sdo := rfl
@[simp] theorem State.setWc_faults (s : State) (v : Nat) : (s.setWc v).faults = s.faults := rfl
@[simp] theorem State.setWc_refused (s : State) (v : Nat) : (s.setWc v).refused = s.refused := rfl
@[simp] theorem State.setWc_trace (s : State) (v : Nat) : (s.setWc v).trace = s.trace := rfl
@[simp] theorem State.setWc_romOut (s : State) (v : Nat) : (s.setWc v).romOut = s.romOut := rfl
@[simp] theorem State.setWc_env (s : State) (v : Nat) : (s.setWc v).env = s.env := rfl

/-! The fields after `State.setSpeed`. -/

@[simp] theorem State.setSpeed_cfg (s : State) (v : BitVec 10) : (s.setSpeed v).cfg = s.cfg := rfl
@[simp] theorem State.setSpeed_tally (s : State) (v : BitVec 10) : (s.setSpeed v).tally = s.tally := rfl
@[simp] theorem State.setSpeed_wc (s : State) (v : BitVec 10) : (s.setSpeed v).wc = s.wc := rfl
@[simp] theorem State.setSpeed_speed (s : State) (v : BitVec 10) : (s.setSpeed v).speed = v := rfl
@[simp] theorem State.setSpeed_dig (s : State) (v : BitVec 10) : (s.setSpeed v).dig = s.dig := rfl
@[simp] theorem State.setSpeed_rc (s : State) (v : BitVec 10) : (s.setSpeed v).rc = s.rc := rfl
@[simp] theorem State.setSpeed_curD (s : State) (v : BitVec 10) : (s.setSpeed v).curD = s.curD := rfl
@[simp] theorem State.setSpeed_curS (s : State) (v : BitVec 10) : (s.setSpeed v).curS = s.curS := rfl
@[simp] theorem State.setSpeed_clk (s : State) (v : BitVec 10) : (s.setSpeed v).clk = s.clk := rfl
@[simp] theorem State.setSpeed_stat (s : State) (v : BitVec 10) : (s.setSpeed v).stat = s.stat := rfl
@[simp] theorem State.setSpeed_deN (s : State) (v : BitVec 10) : (s.setSpeed v).deN = s.deN := rfl
@[simp] theorem State.setSpeed_sb (s : State) (v : BitVec 10) : (s.setSpeed v).sb = s.sb := rfl
@[simp] theorem State.setSpeed_sdo (s : State) (v : BitVec 10) : (s.setSpeed v).sdo = s.sdo := rfl
@[simp] theorem State.setSpeed_faults (s : State) (v : BitVec 10) : (s.setSpeed v).faults = s.faults := rfl
@[simp] theorem State.setSpeed_refused (s : State) (v : BitVec 10) : (s.setSpeed v).refused = s.refused := rfl
@[simp] theorem State.setSpeed_trace (s : State) (v : BitVec 10) : (s.setSpeed v).trace = s.trace := rfl
@[simp] theorem State.setSpeed_romOut (s : State) (v : BitVec 10) : (s.setSpeed v).romOut = s.romOut := rfl
@[simp] theorem State.setSpeed_env (s : State) (v : BitVec 10) : (s.setSpeed v).env = s.env := rfl

/-! The fields after `State.setDig`. -/

@[simp] theorem State.setDig_cfg (s : State) (v : Digits) : (s.setDig v).cfg = s.cfg := rfl
@[simp] theorem State.setDig_tally (s : State) (v : Digits) : (s.setDig v).tally = s.tally := rfl
@[simp] theorem State.setDig_wc (s : State) (v : Digits) : (s.setDig v).wc = s.wc := rfl
@[simp] theorem State.setDig_speed (s : State) (v : Digits) : (s.setDig v).speed = s.speed := rfl
@[simp] theorem State.setDig_dig (s : State) (v : Digits) : (s.setDig v).dig = v := rfl
@[simp] theorem State.setDig_rc (s : State) (v : Digits) : (s.setDig v).rc = s.rc := rfl
@[simp] theorem State.setDig_curD (s : State) (v : Digits) : (s.setDig v).curD = s.curD := rfl
@[simp] theorem State.setDig_curS (s : State) (v : Digits) : (s.setDig v).curS = s.curS := rfl
@[simp] theorem State.setDig_clk (s : State) (v : Digits) : (s.setDig v).clk = s.clk := rfl
@[simp] theorem State.setDig_stat (s : State) (v : Digits) : (s.setDig v).stat = s.stat := rfl
@[simp] theorem State.setDig_deN (s : State) (v : Digits) : (s.setDig v).deN = s.deN := rfl
@[simp] theorem State.setDig_sb (s : State) (v : Digits) : (s.setDig v).sb = s.sb := rfl
@[simp] theorem State.setDig_sdo (s : State) (v : Digits) : (s.setDig v).sdo = s.sdo := rfl
@[simp] theorem State.setDig_faults (s : State) (v : Digits) : (s.setDig v).faults = s.faults := rfl
@[simp] theorem State.setDig_refused (s : State) (v : Digits) : (s.setDig v).refused = s.refused := rfl
@[simp] theorem State.setDig_trace (s : State) (v : Digits) : (s.setDig v).trace = s.trace := rfl
@[simp] theorem State.setDig_romOut (s : State) (v : Digits) : (s.setDig v).romOut = s.romOut := rfl
@[simp] theorem State.setDig_env (s : State) (v : Digits) : (s.setDig v).env = s.env := rfl

/-! The fields after `State.setRc`. -/

@[simp] theorem State.setRc_cfg (s : State) (v : Nat) : (s.setRc v).cfg = s.cfg := rfl
@[simp] theorem State.setRc_tally (s : State) (v : Nat) : (s.setRc v).tally = s.tally := rfl
@[simp] theorem State.setRc_wc (s : State) (v : Nat) : (s.setRc v).wc = s.wc := rfl
@[simp] theorem State.setRc_speed (s : State) (v : Nat) : (s.setRc v).speed = s.speed := rfl
@[simp] theorem State.setRc_dig (s : State) (v : Nat) : (s.setRc v).dig = s.dig := rfl
@[simp] theorem State.setRc_rc (s : State) (v : Nat) : (s.setRc v).rc = v := rfl
@[simp] theorem State.setRc_curD (s : State) (v : Nat) : (s.setRc v).curD = s.curD := rfl
@[simp] theorem State.setRc_curS (s : State) (v : Nat) : (s.setRc v).curS = s.curS := rfl
@[simp] theorem State.setRc_clk (s : State) (v : Nat) : (s.setRc v).clk = s.clk := rfl
@[simp] theorem State.setRc_stat (s : State) (v : Nat) : (s.setRc v).stat = s.stat := rfl
@[simp] theorem State.setRc_deN (s : State) (v : Nat) : (s.setRc v).deN = s.deN := rfl
@[simp] theorem State.setRc_sb (s : State) (v : Nat) : (s.setRc v).sb = s.sb := rfl
@[simp] theorem State.setRc_sdo (s : State) (v : Nat) : (s.setRc v).sdo = s.sdo := rfl
@[simp] theorem State.setRc_faults (s : State) (v : Nat) : (s.setRc v).faults = s.faults := rfl
@[simp] theorem State.setRc_refused (s : State) (v : Nat) : (s.setRc v).refused = s.refused := rfl
@[simp] theorem State.setRc_trace (s : State) (v : Nat) : (s.setRc v).trace = s.trace := rfl
@[simp] theorem State.setRc_romOut (s : State) (v : Nat) : (s.setRc v).romOut = s.romOut := rfl
@[simp] theorem State.setRc_env (s : State) (v : Nat) : (s.setRc v).env = s.env := rfl

end Sys2Proof.Machine
end

