-- ==== Sys2Proof/Laws/State.lean ====
section
/-! SUPPORT. The fields of the state after each pin write and each fault: one lemma per field per update. The other updates
stand in Laws/StateRegisters.lean and Laws/StateOutputs.lean, which this file brings with it. -/

namespace Sys2Proof.Machine

/-! The fields after `State.setPin`. -/

/-- A pin write changes pins only. -/
theorem State.setPin_frame (s : State) (p : Pin) (v : Level) :
    s.setPin p v = { s with
      clk := (s.setPin p v).clk
      stat := (s.setPin p v).stat
      deN := (s.setPin p v).deN
      sb := (s.setPin p v).sb
      sdo := (s.setPin p v).sdo } := by cases p <;> rfl

@[simp] theorem State.setPin_cfg (s : State) (p : Pin) (v : Level) : (s.setPin p v).cfg = s.cfg :=
  (congrArg State.cfg (State.setPin_frame s p v)).trans rfl
@[simp] theorem State.setPin_tally (s : State) (p : Pin) (v : Level) : (s.setPin p v).tally = s.tally :=
  (congrArg State.tally (State.setPin_frame s p v)).trans rfl
@[simp] theorem State.setPin_wc (s : State) (p : Pin) (v : Level) : (s.setPin p v).wc = s.wc :=
  (congrArg State.wc (State.setPin_frame s p v)).trans rfl
@[simp] theorem State.setPin_speed (s : State) (p : Pin) (v : Level) : (s.setPin p v).speed = s.speed :=
  (congrArg State.speed (State.setPin_frame s p v)).trans rfl
@[simp] theorem State.setPin_dig (s : State) (p : Pin) (v : Level) : (s.setPin p v).dig = s.dig :=
  (congrArg State.dig (State.setPin_frame s p v)).trans rfl
@[simp] theorem State.setPin_rc (s : State) (p : Pin) (v : Level) : (s.setPin p v).rc = s.rc :=
  (congrArg State.rc (State.setPin_frame s p v)).trans rfl
@[simp] theorem State.setPin_curD (s : State) (p : Pin) (v : Level) : (s.setPin p v).curD = s.curD :=
  (congrArg State.curD (State.setPin_frame s p v)).trans rfl
@[simp] theorem State.setPin_curS (s : State) (p : Pin) (v : Level) : (s.setPin p v).curS = s.curS :=
  (congrArg State.curS (State.setPin_frame s p v)).trans rfl
@[simp] theorem State.setPin_faults (s : State) (p : Pin) (v : Level) : (s.setPin p v).faults = s.faults :=
  (congrArg State.faults (State.setPin_frame s p v)).trans rfl
@[simp] theorem State.setPin_refused (s : State) (p : Pin) (v : Level) : (s.setPin p v).refused = s.refused :=
  (congrArg State.refused (State.setPin_frame s p v)).trans rfl
@[simp] theorem State.setPin_trace (s : State) (p : Pin) (v : Level) : (s.setPin p v).trace = s.trace :=
  (congrArg State.trace (State.setPin_frame s p v)).trans rfl
@[simp] theorem State.setPin_romOut (s : State) (p : Pin) (v : Level) : (s.setPin p v).romOut = s.romOut :=
  (congrArg State.romOut (State.setPin_frame s p v)).trans rfl
@[simp] theorem State.setPin_env (s : State) (p : Pin) (v : Level) : (s.setPin p v).env = s.env :=
  (congrArg State.env (State.setPin_frame s p v)).trans rfl
@[simp] theorem State.setPin_clk_clk (s : State) (v : Level) : (s.setPin .clk v).clk = v := rfl
@[simp] theorem State.setPin_clk_stat (s : State) (v : Level) : (s.setPin .clk v).stat = s.stat := rfl
@[simp] theorem State.setPin_clk_deN (s : State) (v : Level) : (s.setPin .clk v).deN = s.deN := rfl
@[simp] theorem State.setPin_clk_sb (s : State) (v : Level) : (s.setPin .clk v).sb = s.sb := rfl
@[simp] theorem State.setPin_clk_sdo (s : State) (v : Level) : (s.setPin .clk v).sdo = s.sdo := rfl
@[simp] theorem State.setPin_stat_clk (s : State) (v : Level) : (s.setPin .stat v).clk = s.clk := rfl
@[simp] theorem State.setPin_stat_stat (s : State) (v : Level) : (s.setPin .stat v).stat = v := rfl
@[simp] theorem State.setPin_stat_deN (s : State) (v : Level) : (s.setPin .stat v).deN = s.deN := rfl
@[simp] theorem State.setPin_stat_sb (s : State) (v : Level) : (s.setPin .stat v).sb = s.sb := rfl
@[simp] theorem State.setPin_stat_sdo (s : State) (v : Level) : (s.setPin .stat v).sdo = s.sdo := rfl
@[simp] theorem State.setPin_deN_clk (s : State) (v : Level) : (s.setPin .deN v).clk = s.clk := rfl
@[simp] theorem State.setPin_deN_stat (s : State) (v : Level) : (s.setPin .deN v).stat = s.stat := rfl
@[simp] theorem State.setPin_deN_deN (s : State) (v : Level) : (s.setPin .deN v).deN = v := rfl
@[simp] theorem State.setPin_deN_sb (s : State) (v : Level) : (s.setPin .deN v).sb = s.sb := rfl
@[simp] theorem State.setPin_deN_sdo (s : State) (v : Level) : (s.setPin .deN v).sdo = s.sdo := rfl
@[simp] theorem State.setPin_sb_clk (s : State) (v : Level) : (s.setPin .sb v).clk = s.clk := rfl
@[simp] theorem State.setPin_sb_stat (s : State) (v : Level) : (s.setPin .sb v).stat = s.stat := rfl
@[simp] theorem State.setPin_sb_deN (s : State) (v : Level) : (s.setPin .sb v).deN = s.deN := rfl
@[simp] theorem State.setPin_sb_sb (s : State) (v : Level) : (s.setPin .sb v).sb = v := rfl
@[simp] theorem State.setPin_sb_sdo (s : State) (v : Level) : (s.setPin .sb v).sdo = s.sdo := rfl
@[simp] theorem State.setPin_sdo_clk (s : State) (v : Level) : (s.setPin .sdo v).clk = s.clk := rfl
@[simp] theorem State.setPin_sdo_stat (s : State) (v : Level) : (s.setPin .sdo v).stat = s.stat := rfl
@[simp] theorem State.setPin_sdo_deN (s : State) (v : Level) : (s.setPin .sdo v).deN = s.deN := rfl
@[simp] theorem State.setPin_sdo_sb (s : State) (v : Level) : (s.setPin .sdo v).sb = s.sb := rfl
@[simp] theorem State.setPin_sdo_sdo (s : State) (v : Level) : (s.setPin .sdo v).sdo = v := rfl

/-! The level of each pin. -/

@[simp] theorem State.pin_clk (s : State) : s.pin .clk = s.clk := rfl
@[simp] theorem State.pin_stat (s : State) : s.pin .stat = s.stat := rfl
@[simp] theorem State.pin_deN (s : State) : s.pin .deN = s.deN := rfl
@[simp] theorem State.pin_sb (s : State) : s.pin .sb = s.sb := rfl
@[simp] theorem State.pin_sdo (s : State) : s.pin .sdo = s.sdo := rfl

/-! The fields after `drive`, but `trace` (see `drive_trace`). -/

/-- `drive` changes pins and the trace only. -/
theorem drive_frame (p : Pin) (v : Level) (s : State) :
    drive p v s = { s with
      clk := (drive p v s).clk
      stat := (drive p v s).stat
      deN := (drive p v s).deN
      sb := (drive p v s).sb
      sdo := (drive p v s).sdo
      trace := (drive p v s).trace } := by
  unfold drive; split
  · rfl
  · cases p <;> rfl

@[simp] theorem drive_cfg (p : Pin) (v : Level) (s : State) : (drive p v s).cfg = s.cfg :=
  (congrArg State.cfg (drive_frame p v s)).trans rfl
@[simp] theorem drive_tally (p : Pin) (v : Level) (s : State) : (drive p v s).tally = s.tally :=
  (congrArg State.tally (drive_frame p v s)).trans rfl
@[simp] theorem drive_wc (p : Pin) (v : Level) (s : State) : (drive p v s).wc = s.wc :=
  (congrArg State.wc (drive_frame p v s)).trans rfl
@[simp] theorem drive_speed (p : Pin) (v : Level) (s : State) : (drive p v s).speed = s.speed :=
  (congrArg State.speed (drive_frame p v s)).trans rfl
@[simp] theorem drive_dig (p : Pin) (v : Level) (s : State) : (drive p v s).dig = s.dig :=
  (congrArg State.dig (drive_frame p v s)).trans rfl
@[simp] theorem drive_rc (p : Pin) (v : Level) (s : State) : (drive p v s).rc = s.rc :=
  (congrArg State.rc (drive_frame p v s)).trans rfl
@[simp] theorem drive_curD (p : Pin) (v : Level) (s : State) : (drive p v s).curD = s.curD :=
  (congrArg State.curD (drive_frame p v s)).trans rfl
@[simp] theorem drive_curS (p : Pin) (v : Level) (s : State) : (drive p v s).curS = s.curS :=
  (congrArg State.curS (drive_frame p v s)).trans rfl
@[simp] theorem drive_faults (p : Pin) (v : Level) (s : State) : (drive p v s).faults = s.faults :=
  (congrArg State.faults (drive_frame p v s)).trans rfl
@[simp] theorem drive_refused (p : Pin) (v : Level) (s : State) : (drive p v s).refused = s.refused :=
  (congrArg State.refused (drive_frame p v s)).trans rfl
@[simp] theorem drive_romOut (p : Pin) (v : Level) (s : State) : (drive p v s).romOut = s.romOut :=
  (congrArg State.romOut (drive_frame p v s)).trans rfl
@[simp] theorem drive_env (p : Pin) (v : Level) (s : State) : (drive p v s).env = s.env :=
  (congrArg State.env (drive_frame p v s)).trans rfl
@[simp] theorem drive_clk_clk (v : Level) (s : State) : (drive .clk v s).clk = v := by
  unfold drive; split
  · assumption
  · simp
@[simp] theorem drive_clk_stat (v : Level) (s : State) : (drive .clk v s).stat = s.stat := by
  unfold drive; split <;> simp
@[simp] theorem drive_clk_deN (v : Level) (s : State) : (drive .clk v s).deN = s.deN := by
  unfold drive; split <;> simp
@[simp] theorem drive_clk_sb (v : Level) (s : State) : (drive .clk v s).sb = s.sb := by
  unfold drive; split <;> simp
@[simp] theorem drive_clk_sdo (v : Level) (s : State) : (drive .clk v s).sdo = s.sdo := by
  unfold drive; split <;> simp
@[simp] theorem drive_stat_clk (v : Level) (s : State) : (drive .stat v s).clk = s.clk := by
  unfold drive; split <;> simp
@[simp] theorem drive_stat_stat (v : Level) (s : State) : (drive .stat v s).stat = v := by
  unfold drive; split
  · assumption
  · simp
@[simp] theorem drive_stat_deN (v : Level) (s : State) : (drive .stat v s).deN = s.deN := by
  unfold drive; split <;> simp
@[simp] theorem drive_stat_sb (v : Level) (s : State) : (drive .stat v s).sb = s.sb := by
  unfold drive; split <;> simp
@[simp] theorem drive_stat_sdo (v : Level) (s : State) : (drive .stat v s).sdo = s.sdo := by
  unfold drive; split <;> simp
@[simp] theorem drive_deN_clk (v : Level) (s : State) : (drive .deN v s).clk = s.clk := by
  unfold drive; split <;> simp
@[simp] theorem drive_deN_stat (v : Level) (s : State) : (drive .deN v s).stat = s.stat := by
  unfold drive; split <;> simp
@[simp] theorem drive_deN_deN (v : Level) (s : State) : (drive .deN v s).deN = v := by
  unfold drive; split
  · assumption
  · simp
@[simp] theorem drive_deN_sb (v : Level) (s : State) : (drive .deN v s).sb = s.sb := by
  unfold drive; split <;> simp
@[simp] theorem drive_deN_sdo (v : Level) (s : State) : (drive .deN v s).sdo = s.sdo := by
  unfold drive; split <;> simp
@[simp] theorem drive_sb_clk (v : Level) (s : State) : (drive .sb v s).clk = s.clk := by
  unfold drive; split <;> simp
@[simp] theorem drive_sb_stat (v : Level) (s : State) : (drive .sb v s).stat = s.stat := by
  unfold drive; split <;> simp
@[simp] theorem drive_sb_deN (v : Level) (s : State) : (drive .sb v s).deN = s.deN := by
  unfold drive; split <;> simp
@[simp] theorem drive_sb_sb (v : Level) (s : State) : (drive .sb v s).sb = v := by
  unfold drive; split
  · assumption
  · simp
@[simp] theorem drive_sb_sdo (v : Level) (s : State) : (drive .sb v s).sdo = s.sdo := by
  unfold drive; split <;> simp
@[simp] theorem drive_sdo_clk (v : Level) (s : State) : (drive .sdo v s).clk = s.clk := by
  unfold drive; split <;> simp
@[simp] theorem drive_sdo_stat (v : Level) (s : State) : (drive .sdo v s).stat = s.stat := by
  unfold drive; split <;> simp
@[simp] theorem drive_sdo_deN (v : Level) (s : State) : (drive .sdo v s).deN = s.deN := by
  unfold drive; split <;> simp
@[simp] theorem drive_sdo_sb (v : Level) (s : State) : (drive .sdo v s).sb = s.sb := by
  unfold drive; split <;> simp
@[simp] theorem drive_sdo_sdo (v : Level) (s : State) : (drive .sdo v s).sdo = v := by
  unfold drive; split
  · assumption
  · simp

/-- `drive` appends one event where the level changes, and nothing otherwise (00_scope.md R15). -/
@[simp] theorem drive_trace (p : Pin) (v : Level) (s : State) :
    (drive p v s).trace = s.trace ++ (if s.pin p = v then [] else [(p, v)]) := by
  unfold drive; split <;> simp

/-! The fields after `raise`, but `faults` (see `raise_faults`). -/

/-- `raise` changes FAULT only. -/
theorem raise_eq (r : FaultRecord) (s : State) : raise r s = { s with faults := (raise r s).faults } := by
  unfold raise; split <;> rfl

@[simp] theorem raise_cfg (r : FaultRecord) (s : State) : (raise r s).cfg = s.cfg := (congrArg State.cfg (raise_eq r s)).trans rfl
@[simp] theorem raise_tally (r : FaultRecord) (s : State) : (raise r s).tally = s.tally := (congrArg State.tally (raise_eq r s)).trans rfl
@[simp] theorem raise_wc (r : FaultRecord) (s : State) : (raise r s).wc = s.wc := (congrArg State.wc (raise_eq r s)).trans rfl
@[simp] theorem raise_speed (r : FaultRecord) (s : State) : (raise r s).speed = s.speed := (congrArg State.speed (raise_eq r s)).trans rfl
@[simp] theorem raise_dig (r : FaultRecord) (s : State) : (raise r s).dig = s.dig := (congrArg State.dig (raise_eq r s)).trans rfl
@[simp] theorem raise_rc (r : FaultRecord) (s : State) : (raise r s).rc = s.rc := (congrArg State.rc (raise_eq r s)).trans rfl
@[simp] theorem raise_curD (r : FaultRecord) (s : State) : (raise r s).curD = s.curD := (congrArg State.curD (raise_eq r s)).trans rfl
@[simp] theorem raise_curS (r : FaultRecord) (s : State) : (raise r s).curS = s.curS := (congrArg State.curS (raise_eq r s)).trans rfl
@[simp] theorem raise_clk (r : FaultRecord) (s : State) : (raise r s).clk = s.clk := (congrArg State.clk (raise_eq r s)).trans rfl
@[simp] theorem raise_stat (r : FaultRecord) (s : State) : (raise r s).stat = s.stat := (congrArg State.stat (raise_eq r s)).trans rfl
@[simp] theorem raise_deN (r : FaultRecord) (s : State) : (raise r s).deN = s.deN := (congrArg State.deN (raise_eq r s)).trans rfl
@[simp] theorem raise_sb (r : FaultRecord) (s : State) : (raise r s).sb = s.sb := (congrArg State.sb (raise_eq r s)).trans rfl
@[simp] theorem raise_sdo (r : FaultRecord) (s : State) : (raise r s).sdo = s.sdo := (congrArg State.sdo (raise_eq r s)).trans rfl
@[simp] theorem raise_refused (r : FaultRecord) (s : State) : (raise r s).refused = s.refused := (congrArg State.refused (raise_eq r s)).trans rfl
@[simp] theorem raise_trace (r : FaultRecord) (s : State) : (raise r s).trace = s.trace := (congrArg State.trace (raise_eq r s)).trans rfl
@[simp] theorem raise_romOut (r : FaultRecord) (s : State) : (raise r s).romOut = s.romOut := (congrArg State.romOut (raise_eq r s)).trans rfl
@[simp] theorem raise_env (r : FaultRecord) (s : State) : (raise r s).env = s.env := (congrArg State.env (raise_eq r s)).trans rfl

/-- `raise` records a fault once (10_state.md R38). -/
@[simp] theorem raise_faults (r : FaultRecord) (s : State) :
    (raise r s).faults = if r ∈ s.faults then s.faults else s.faults ++ [r] := by
  unfold raise; split <;> rfl

/-! The fields after `raiseAll`, but `faults`. -/

/-- `raiseAll` changes FAULT only. -/
theorem raiseAll_eq (rs : List FaultRecord) (s : State) :
    raiseAll rs s = { s with faults := (raiseAll rs s).faults } := by
  induction rs generalizing s with
  | nil => rfl
  | cons r rs ih => rw [raiseAll, ih (raise r s), raise_eq r s]

@[simp] theorem raiseAll_cfg (rs : List FaultRecord) (s : State) : (raiseAll rs s).cfg = s.cfg :=
  (congrArg State.cfg (raiseAll_eq rs s)).trans rfl
@[simp] theorem raiseAll_tally (rs : List FaultRecord) (s : State) : (raiseAll rs s).tally = s.tally :=
  (congrArg State.tally (raiseAll_eq rs s)).trans rfl
@[simp] theorem raiseAll_wc (rs : List FaultRecord) (s : State) : (raiseAll rs s).wc = s.wc :=
  (congrArg State.wc (raiseAll_eq rs s)).trans rfl
@[simp] theorem raiseAll_speed (rs : List FaultRecord) (s : State) : (raiseAll rs s).speed = s.speed :=
  (congrArg State.speed (raiseAll_eq rs s)).trans rfl
@[simp] theorem raiseAll_dig (rs : List FaultRecord) (s : State) : (raiseAll rs s).dig = s.dig :=
  (congrArg State.dig (raiseAll_eq rs s)).trans rfl
@[simp] theorem raiseAll_rc (rs : List FaultRecord) (s : State) : (raiseAll rs s).rc = s.rc :=
  (congrArg State.rc (raiseAll_eq rs s)).trans rfl
@[simp] theorem raiseAll_curD (rs : List FaultRecord) (s : State) : (raiseAll rs s).curD = s.curD :=
  (congrArg State.curD (raiseAll_eq rs s)).trans rfl
@[simp] theorem raiseAll_curS (rs : List FaultRecord) (s : State) : (raiseAll rs s).curS = s.curS :=
  (congrArg State.curS (raiseAll_eq rs s)).trans rfl
@[simp] theorem raiseAll_clk (rs : List FaultRecord) (s : State) : (raiseAll rs s).clk = s.clk :=
  (congrArg State.clk (raiseAll_eq rs s)).trans rfl
@[simp] theorem raiseAll_stat (rs : List FaultRecord) (s : State) : (raiseAll rs s).stat = s.stat :=
  (congrArg State.stat (raiseAll_eq rs s)).trans rfl
@[simp] theorem raiseAll_deN (rs : List FaultRecord) (s : State) : (raiseAll rs s).deN = s.deN :=
  (congrArg State.deN (raiseAll_eq rs s)).trans rfl
@[simp] theorem raiseAll_sb (rs : List FaultRecord) (s : State) : (raiseAll rs s).sb = s.sb :=
  (congrArg State.sb (raiseAll_eq rs s)).trans rfl
@[simp] theorem raiseAll_sdo (rs : List FaultRecord) (s : State) : (raiseAll rs s).sdo = s.sdo :=
  (congrArg State.sdo (raiseAll_eq rs s)).trans rfl
@[simp] theorem raiseAll_refused (rs : List FaultRecord) (s : State) : (raiseAll rs s).refused = s.refused :=
  (congrArg State.refused (raiseAll_eq rs s)).trans rfl
@[simp] theorem raiseAll_trace (rs : List FaultRecord) (s : State) : (raiseAll rs s).trace = s.trace :=
  (congrArg State.trace (raiseAll_eq rs s)).trans rfl
@[simp] theorem raiseAll_romOut (rs : List FaultRecord) (s : State) : (raiseAll rs s).romOut = s.romOut :=
  (congrArg State.romOut (raiseAll_eq rs s)).trans rfl
@[simp] theorem raiseAll_env (rs : List FaultRecord) (s : State) : (raiseAll rs s).env = s.env :=
  (congrArg State.env (raiseAll_eq rs s)).trans rfl

end Sys2Proof.Machine
end

