-- ==== Sys2Proof/Laws/Ops.lean ====
section
/-! SUPPORT. One lemma per shared operation that says what it can do, for the proofs to cite. -/

namespace Sys2Proof.Machine

/-! Entering an operation: the three ways `performOperation` and `performMicro` can go. -/

theorem rangeCheck_eq_nil (e : Element) (v b : Nat) : rangeCheck e v b = [] ↔ v < b := by
  unfold rangeCheck; split <;> simp_all

theorem mem_rangeCheck (f : FaultRecord) (e : Element) (v b : Nat) :
    f ∈ rangeCheck e v b ↔ f = .stateRange e v ∧ b ≤ v := by
  unfold rangeCheck; split <;> simp <;> omega

/-- The state-range check records nothing exactly on the legal states (60_exceptions.md R175). -/
theorem rangeFaults_eq_nil (s : State) : rangeFaults s = [] ↔ Legal s := by
  have hd : s.curD.toNat < 3 ↔ s.curD ≠ 3 := by
    have := s.curD.isLt
    constructor
    · intro h hc; rw [hc] at h; simp at h
    · intro h; by_contra hc
      exact h (BitVec.eq_of_toNat_eq (by simp; omega))
  have ht : s.tally < 2 ^ s.cfg.TW ↔ s.tally ≤ 2 ^ s.cfg.TW - 1 := by
    have := Nat.two_pow_pos s.cfg.TW; omega
  simp only [rangeFaults, List.append_eq_nil_iff, rangeCheck_eq_nil, hd, ht, Nat.lt_succ_iff, and_assoc]

/-- What the state-range check records (60_exceptions.md R175). -/
theorem mem_rangeFaults (f : FaultRecord) (s : State) : f ∈ rangeFaults s ↔ OutOfRange s f := by
  simp only [rangeFaults, List.mem_append, mem_rangeCheck, OutOfRange]
  constructor
  · rintro ((((((h | h) | h) | h) | h) | h) | h) <;> exact ⟨_, h.1, h.2⟩
  · rintro ⟨e, h1, h2⟩
    cases e <;> simp_all [elementValue, elementBound]

/-- What `raiseAll` leaves in `FAULT`. -/
theorem mem_raiseAll_faults (g : FaultRecord) (fs : List FaultRecord) (s : State) :
    g ∈ (raiseAll fs s).faults ↔ g ∈ s.faults ∨ g ∈ fs := by
  induction fs generalizing s with
  | nil => simp [raiseAll]
  | cons f fs ih => rw [raiseAll, ih, raise_faults]; split <;> simp <;> aesop

/-- What `raise` leaves in `FAULT`. -/
theorem mem_raise_faults (g f : FaultRecord) (s : State) : g ∈ (raise f s).faults ↔ g ∈ s.faults ∨ g = f := by
  rw [raise_faults]; split <;> simp; aesop

/-- From a ready state an operation is its own effect (60_exceptions.md R175, R179, R180). -/
theorem performOperation_ready (body : State → State) {s : State} (h : Ready s) :
    performOperation body s = body (enterOperation s) := by
  rw [performOperation, if_pos h.1, (rangeFaults_eq_nil s).2 h.2, leaveOperation_eq]

/-- A bad configuration refuses the step (60_exceptions.md R176). -/
theorem performOperation_badConfig (body : State → State) {s : State} (h : ¬ConfigOk s.cfg) :
    performOperation body s = refuse (enterOperation s) := by
  rw [performOperation, if_neg h]

/-- An illegal state stops the step with FLT_STATE_RANGE (60_exceptions.md R175). -/
theorem performOperation_illegal (body : State → State) {s : State} (h : ConfigOk s.cfg) (hl : ¬Legal s) :
    performOperation body s = raiseAll (rangeFaults s) (enterOperation s) := by
  have hr : rangeFaults s ≠ [] := mt (rangeFaults_eq_nil s).1 hl
  rw [performOperation, if_pos h]
  split
  · contradiction
  · simp_all

/-- What the state-range check leaves, in the words of 60_exceptions.md R175. -/
theorem rangeFault_raiseAll {s : State} (hl : ¬Legal s) : RangeFault s (raiseAll (rangeFaults s) (enterOperation s)) := by
  have hr : rangeFaults s ≠ [] := mt (rangeFaults_eq_nil s).1 hl
  obtain ⟨f, hf⟩ := List.exists_mem_of_ne_nil _ hr
  refine ⟨?_, ?_, ?_, f, ?_, (mem_rangeFaults f s).1 hf⟩
  · rw [raiseAll_eq]; rfl
  · intro g hg; exact (mem_raiseAll_faults g _ _).2 (.inl (by simpa using hg))
  · intro g hg
    rcases (mem_raiseAll_faults g _ _).1 hg with h | h
    · exact .inl (by simpa using h)
    · exact .inr ((mem_rangeFaults g s).1 h)
  · exact (mem_raiseAll_faults f _ _).2 (.inr hf)

/-- Every way an operation can go: refused, stopped by the range check, or performed. -/
theorem performOperation_cases (body : State → State) (s : State) :
    (¬ConfigOk s.cfg ∧ performOperation body s = refuse (enterOperation s)) ∨
    (ConfigOk s.cfg ∧ ¬Legal s ∧ performOperation body s = raiseAll (rangeFaults s) (enterOperation s)) ∨
    (Ready s ∧ performOperation body s = body (enterOperation s)) := by
  by_cases h : ConfigOk s.cfg
  · by_cases hl : Legal s
    · exact .inr (.inr ⟨⟨h, hl⟩, performOperation_ready body ⟨h, hl⟩⟩)
    · exact .inr (.inl ⟨h, hl, performOperation_illegal body h hl⟩)
  · exact .inl ⟨h, performOperation_badConfig body h⟩

theorem performMicro_ok (body : State → State) {s : State} (h : ConfigOk s.cfg) : performMicro body s = body s := if_pos h

theorem performMicro_badConfig (body : State → State) {s : State} (h : ¬ConfigOk s.cfg) :
    performMicro body s = refuse s := if_neg h

/-! Pins. -/

/-- The pins after `setPin`. -/
theorem setPin_pin (s : State) (p q : Pin) (v : Level) : (s.setPin p v).pin q = if q = p then v else s.pin q := by
  cases p <;> cases q <;> rfl

/-- The pins after `drive`. -/
theorem drive_pin (s : State) (p q : Pin) (v : Level) : (drive p v s).pin q = if q = p then v else s.pin q := by
  cases p <;> cases q <;> simp

/-- The levels a trace leads to depend on the starting levels alone. -/
theorem playTrace_congr {s u : State} (h : ∀ p, s.pin p = u.pin p) (es : List PinEvent) :
    (playTrace s es = none ∧ playTrace u es = none) ∨
    ∃ a b, playTrace s es = some a ∧ playTrace u es = some b ∧ ∀ p, a.pin p = b.pin p := by
  induction es generalizing s u with
  | nil => exact .inr ⟨s, u, rfl, rfl, h⟩
  | cons e es ih =>
    obtain ⟨p, v⟩ := e
    simp only [playTrace, h p]
    split
    · exact .inl ⟨rfl, rfl⟩
    · exact ih fun q => by rw [setPin_pin, setPin_pin, h q]

/-- Playing one trace after another. -/
theorem playTrace_append (s : State) (es fs : List PinEvent) :
    playTrace s (es ++ fs) = (playTrace s es).bind fun t => playTrace t fs := by
  induction es generalizing s with
  | nil => rfl
  | cons e es ih =>
    obtain ⟨p, v⟩ := e
    simp only [List.cons_append, playTrace]
    split
    · rfl
    · exact ih _

/-! Operands. -/

/-- The saturating increment on a legal value (00_scope.md R12, 41_edge_counter.md R101). -/
theorem satInc_eq_min {n v : Nat} (h : v ≤ 2 ^ n - 1) : satInc n v = min (v + 1) (2 ^ n - 1) := by
  unfold satInc; split <;> omega

/-- The clamp holds its value in the 10 bits of `SPEED` (43_rate_window.md R125). -/
@[simp] theorem clampSpeed_toNat (n : Nat) : (clampSpeed n).toNat = min n 999 := by
  simp only [clampSpeed, speedMax, BitVec.toNat_ofNat]; omega

/-- The digits of a value of the domain (45_digit_decomposer.md R152). -/
theorem digitsOf_toNat {v : BitVec 10} (h : v.toNat ≤ 999) :
    (digitsOf v).d0.toNat = v.toNat / 100 ∧ (digitsOf v).d1.toNat = v.toNat / 10 % 10 ∧
    (digitsOf v).d2.toNat = v.toNat % 10 := by
  simp only [digitsOf, BitVec.toNat_ofNat]; omega

/-- ADVANCE counts positions modulo 24 (44_display_multiplexer.md R135). -/
theorem advance_position {d : BitVec 2} (hd : d ≠ 3) (c : BitVec 3) :
    8 * (nextCurD d c).toNat + (nextCurS c).toNat = (8 * d.toNat + c.toNat + 1) % 24 := by
  revert hd; revert d c; decide

/-- The cursor never leaves the three entries of DIG (10_state.md R29). -/
theorem nextCurD_ne_three {d : BitVec 2} (hd : d ≠ 3) (c : BitVec 3) : nextCurD d c ≠ 3 := by
  revert hd; revert d c; decide

/-- Entry `d` of DIG exists for each legal `CUR_D` (20_memory.md R51). -/
theorem digEntry_eq {d : BitVec 2} (hd : d ≠ 3) (g : Digits) :
    digEntry g d = some (if d = 0 then g.d0 else if d = 1 then g.d1 else g.d2) := by
  have : d = 0 ∨ d = 1 ∨ d = 2 := by revert hd; revert d; decide
  rcases this with rfl | rfl | rfl <;> rfl

/-- The ROM read under a good configuration (20_memory.md R50). -/
theorem memRead_eq {c : Cfg} (hc : ConfigOk c) {a : Digit} (ha : a.toNat ≤ 9) :
    ∃ e, c.segTable[a.toNat]? = some e ∧ e ≤ 255 ∧ memRead c a = some (BitVec.ofNat 8 e) := by
  obtain ⟨_, _, _, hl, hb⟩ := hc
  have hlt : a.toNat < c.segTable.length := by omega
  refine ⟨c.segTable[a.toNat], List.getElem?_eq_getElem hlt, hb _ (List.getElem_mem hlt), ?_⟩
  rw [memRead, if_pos (by omega), List.getElem?_eq_getElem hlt]; rfl

/-- An index above 9 holds nothing (20_memory.md R50). -/
theorem memRead_eq_none (c : Cfg) {a : Digit} (ha : 10 ≤ a.toNat) : memRead c a = none := if_neg (by omega)

/-- A bit of a ROM entry, read from the number (44_display_multiplexer.md R136). -/
theorem segBit_ofNat {e : Nat} (c : BitVec 3) : segBit (BitVec.ofNat 8 e) c = e.testBit c.toNat := by
  have := c.isLt
  simp only [segBit, BitVec.getLsbD_ofNat]
  simp [this]

/-! The phases. -/

/-- The phase each value of `RC` selects (30_encoding.md R77). -/
theorem phaseOf_cases {R rc : Nat} (hR : 26 ≤ R) (h : rc < R) :
    (rc = 0 ∧ phaseOf R rc = .start) ∨ (1 ≤ rc ∧ rc ≤ 24 ∧ phaseOf R rc = .segment) ∨
    (25 ≤ rc ∧ rc ≤ R - 2 ∧ phaseOf R rc = .idle) ∨ (rc = R - 1 ∧ phaseOf R rc = .finish) := by
  unfold phaseOf spc
  by_cases h0 : rc = 0
  · simp [h0]
  · by_cases h1 : rc < 25
    · simp [h0, h1]; omega
    · by_cases h2 : rc + 2 ≤ R
      · simp [h0, h1, h2]; omega
      · simp [h0, h1, h2]; omega

end Sys2Proof.Machine
end

