-- ==== Sys2Proof/Laws/Families.lean ====
section
/-! SUPPORT. What each family's body does to the state, said once as an equation of the whole state. -/

namespace Sys2Proof.Machine

/-- `drive` as an update of the state (00_scope.md R15). -/
theorem drive_of_eq {p : Pin} {v : Level} {s : State} (h : s.pin p = v) : drive p v s = s := if_pos h

theorem drive_of_ne {p : Pin} {v : Level} {s : State} (h : s.pin p ≠ v) :
    drive p v s = (s.setPin p v).emit (p, v) := if_neg h

/-- `drive` of a pin is the level, and an event where the level changes. -/
theorem drive_clk_eq (v : Level) (s : State) :
    drive .clk v s = { s with clk := v, trace := s.trace ++ (if s.clk = v then [] else [(.clk, v)]) } := by
  by_cases h : s.clk = v
  · subst h; simp [drive]
  · rw [drive_of_ne (by simpa using h), if_neg h]; rfl

theorem drive_stat_eq (v : Level) (s : State) :
    drive .stat v s = { s with stat := v, trace := s.trace ++ (if s.stat = v then [] else [(.stat, v)]) } := by
  by_cases h : s.stat = v
  · subst h; simp [drive]
  · rw [drive_of_ne (by simpa using h), if_neg h]; rfl

theorem drive_deN_eq (v : Level) (s : State) :
    drive .deN v s = { s with deN := v, trace := s.trace ++ (if s.deN = v then [] else [(.deN, v)]) } := by
  by_cases h : s.deN = v
  · subst h; simp [drive]
  · rw [drive_of_ne (by simpa using h), if_neg h]; rfl

theorem drive_sb_eq (v : Level) (s : State) :
    drive .sb v s = { s with sb := v, trace := s.trace ++ (if s.sb = v then [] else [(.sb, v)]) } := by
  by_cases h : s.sb = v
  · subst h; simp [drive]
  · rw [drive_of_ne (by simpa using h), if_neg h]; rfl

theorem drive_sdo_eq (v : Level) (s : State) :
    drive .sdo v s = { s with sdo := v, trace := s.trace ++ (if s.sdo = v then [] else [(.sdo, v)]) } := by
  by_cases h : s.sdo = v
  · subst h; simp [drive]
  · rw [drive_of_ne (by simpa using h), if_neg h]; rfl

/-- EDGE's body (41_edge_counter.md R101). -/
theorem countEdge_eq (s : State) :
    countEdge s = { s with
      tally := satInc s.cfg.TW s.tally
      stat := !s.stat
      trace := s.trace ++ [(.stat, !s.stat)] } := by
  simp [countEdge, drive_stat_eq, State.setTally]

/-- RW_ROLL's body (43_rate_window.md R121). -/
theorem rwRoll_eq (s : State) :
    rwRoll s = { s with speed := clampSpeed s.tally, tally := 0, wc := s.cfg.W - 1 } := rfl

/-- RW_DEC's body where its select chooses it (43_rate_window.md R123). -/
theorem rwDec_eq {s : State} (h : s.wc ≠ 0) : rwDec s = { s with wc := s.wc - 1 } := if_neg h

/-- RATE_WINDOW (43_rate_window.md R120). -/
theorem rateWindow_eq (s : State) :
    rateWindow s = { s with
      speed := if s.wc = 0 then clampSpeed s.tally else s.speed
      tally := if s.wc = 0 then 0 else s.tally
      wc := if s.wc = 0 then s.cfg.W - 1 else s.wc - 1 } := by
  unfold rateWindow
  by_cases h : s.wc = 0
  · simp only [if_pos h, rwRoll_eq]
  · simp only [if_neg h, rwDec_eq h]

/-- DECOMPOSE in its domain (45_digit_decomposer.md R150). -/
theorem decomposeSpeed_eq {s : State} (h : s.speed.toNat ≤ 999) :
    decomposeSpeed s = { s with dig := digitsOf s.speed } := by
  rw [decomposeSpeed, if_neg (by simp only [speedMax]; omega)]; rfl

/-- DECOMPOSE out of its domain (45_digit_decomposer.md R151). -/
theorem decomposeSpeed_out {s : State} (h : 999 < s.speed.toNat) :
    decomposeSpeed s = raise (.decompDomain s.speed) s := if_pos h

/-- DMUX_START's body after the decomposition (44_display_multiplexer.md R131). -/
theorem dmuxStart_eq (s : State) :
    dmuxStart s = { decomposeSpeed s with
      curD := 2
      curS := 7
      deN := false
      sb := true
      trace := (decomposeSpeed s).trace ++ (if (decomposeSpeed s).deN = false then [] else [(.deN, false)]) ++
        (if (decomposeSpeed s).sb = true then [] else [(.sb, true)]) } := by
  simp only [dmuxStart, drive_sb_eq, drive_deN_eq, settle_eq, State.setCursor]

/-- The fields of DECOMPOSE's result but `dig` and `faults`. -/
theorem decomposeSpeed_frame (s : State) :
    decomposeSpeed s = { s with dig := (decomposeSpeed s).dig, faults := (decomposeSpeed s).faults } := by
  unfold decomposeSpeed; split
  · unfold raise; split <;> rfl
  · rfl

/-- SEGLUT at an index that holds an entry (46_segment_encoder.md R163). -/
theorem segLut_eq {s : State} (hc : ConfigOk s.cfg) {a : Digit} (ha : a.toNat ≤ 9) :
    segLut a s = { s with romOut := some (romData s.cfg a) } := by
  obtain ⟨e, _, _, h⟩ := memRead_eq hc ha
  simp only [segLut, romData, h, State.setRomOut, Option.getD_some]

/-- SEGLUT at an index that holds nothing (20_memory.md R50). -/
theorem segLut_out (s : State) {a : Digit} (ha : 10 ≤ a.toNat) :
    segLut a s = raise (.romIndex a) { s with romOut := some 0 } := by
  simp only [segLut, memRead_eq_none s.cfg ha, State.setRomOut]

/-- The digit DMUX_SEGMENT reads (44_display_multiplexer.md R134): the entry at the advanced cursor. -/
def segmentDigit (s : State) : Digit := (digEntry s.dig (nextCurD s.curD s.curS)).getD 0

/-- The bit DMUX_SEGMENT drives (44_display_multiplexer.md R136). -/
def segmentBit (s : State) : Level := segBit (romData s.cfg (segmentDigit s)) (nextCurS s.curS)

/-- DMUX_SEGMENT's body at a legal cursor and digit (44_display_multiplexer.md R134). -/
theorem dmuxSegment_eq {s : State} (hc : ConfigOk s.cfg) (hd : s.curD ≠ 3) (ha : (segmentDigit s).toNat ≤ 9) :
    dmuxSegment s = { s with
      sb := false
      curD := nextCurD s.curD s.curS
      curS := nextCurS s.curS
      sdo := segmentBit s
      trace := s.trace ++ (if s.sb = false then [] else [(.sb, false)]) ++
        (if s.sdo = segmentBit s then [] else [(.sdo, segmentBit s)])
      romOut := some (romData s.cfg (segmentDigit s)) } := by
  have he := digEntry_eq (nextCurD_ne_three hd s.curS) s.dig
  have ha' := congrArg (fun o => Option.getD o 0) he
  simp only [Option.getD_some] at ha'
  change segmentDigit s = _ at ha'
  rw [dmuxSegment, if_neg hd]
  simp only [drive_sb_eq, advance, State.setCursor]
  rw [he]
  simp only [← ha']
  simp only [shiftOut]
  rw [segLut_eq (by exact hc) ha, drive_sdo_eq]
  rfl

/-- In a legal state every entry of DIG at a legal index is a digit (10_state.md R31). -/
theorem segmentDigit_le {s : State} (h : Legal s) : (segmentDigit s).toNat ≤ 9 := by
  obtain ⟨_, _, hd, h0, h1, h2, _⟩ := h
  rw [segmentDigit, digEntry_eq (nextCurD_ne_three hd s.curS), Option.getD_some]
  split
  · exact h0
  · split
    · exact h1
    · exact h2

/-- TICK's body from CLK = 0 (42_tick_scheduler.md R110). -/
theorem schedulerTick_skip {s : State} (h : s.clk = false) :
    schedulerTick s = { s with clk := true, trace := s.trace ++ [(.clk, true)] } := by
  simp [schedulerTick, drive_clk_eq, h, tickSkip]

/-- TICK's body from CLK = 1 (42_tick_scheduler.md R110). -/
theorem schedulerTick_run {s : State} (h : s.clk = true) :
    schedulerTick s = tickRun { s with clk := false, trace := s.trace ++ [(.clk, false)] } := by
  simp [schedulerTick, drive_clk_eq, h]

/-- RATE_WINDOW keeps the legal ranges (43_rate_window.md R121, R123). -/
theorem rateWindow_ready {s : State} (h : Ready s) : Ready (rateWindow s) := by
  obtain ⟨hc, hw, hr⟩ := h
  rw [rateWindow_eq]
  refine ⟨hc, ?_, hr.1, hr.2.1, hr.2.2.1, hr.2.2.2.1, hr.2.2.2.2.1, ?_⟩
  · have := hc.1
    simp only; split <;> omega
  · have := hr.2.2.2.2.2
    simp only; split
    · exact Nat.zero_le _
    · exact this

/-- DISPLAY_MUX in a ready state: the phase's action, and the next value of `RC` (44_display_multiplexer.md R130, R139). -/
theorem displayMux_cases {s : State} (h : Ready s) :
    (s.rc = 0 ∧ displayMux s = (dmuxStart s).setRc 1) ∨
    (1 ≤ s.rc ∧ s.rc ≤ 24 ∧ displayMux s = (dmuxSegment s).setRc (s.rc + 1)) ∨
    (25 ≤ s.rc ∧ s.rc ≤ s.cfg.R - 2 ∧ displayMux s = s.setRc (s.rc + 1)) ∨
    (s.rc = s.cfg.R - 1 ∧ displayMux s = (dmuxEnd s).setRc 0) := by
  have hR : 26 ≤ s.cfg.R := h.1.2.1
  have hmod : s.rc + 1 < s.cfg.R → (s.rc + 1) % s.cfg.R = s.rc + 1 := fun h => Nat.mod_eq_of_lt h
  have key : ∀ {u : State} {n : Nat}, phaseAction (phaseOf s.cfg.R s.rc) s = u → u.rc = s.rc → u.cfg = s.cfg →
      (s.rc + 1) % s.cfg.R = n → displayMux s = u.setRc n := by
    intro u n hu h1 h2 h3
    rw [displayMux, hu, advanceRc, h1, h2, h3]
  rcases phaseOf_cases hR h.2.2.1 with ⟨h0, hp⟩ | ⟨h1, h2, hp⟩ | ⟨h1, h2, hp⟩ | ⟨h1, hp⟩
  · refine .inl ⟨h0, key (by rw [hp]; rfl) ?_ ?_ (by rw [hmod (by omega), h0])⟩ <;>
      rw [dmuxStart_eq, decomposeSpeed_frame]
  · refine .inr (.inl ⟨h1, h2, key (by rw [hp]; rfl) ?_ ?_ (hmod (by omega))⟩) <;>
      rw [dmuxSegment_eq h.1 h.2.2.2.1 (segmentDigit_le h.2)]
  · exact .inr (.inr (.inl ⟨h1, h2, key (by rw [hp]; rfl) rfl rfl (hmod (by omega))⟩))
  · refine .inr (.inr (.inr ⟨h1, key (by rw [hp]; rfl) ?_ ?_ ?_⟩))
    · rw [dmuxEnd, drive_deN_eq]
    · rw [dmuxEnd, drive_deN_eq]
    · rw [h1, Nat.sub_add_cancel (by omega)]; exact Nat.mod_self _

end Sys2Proof.Machine
end

