-- ==== Sys2Proof/Laws/PerInstr.lean ====
section
/-! SUPPORT. The family EncodeRow: what the encoding says of each row of the opcode table (30_encoding.md R70, R78). -/

namespace Sys2Proof.Laws.EncodeRow

/-- A row with a word encodes to one word, which decodes to the row and to no other; an internal row has no word, and no
word decodes to it (30_encoding.md R70, R72, R78). -/
def Statement (i : Instr) : Prop :=
  (WellFormed i = true → ∃ w, encode i = [w] ∧ ∀ v, decodeWord v = i ↔ v = w) ∧
  (WellFormed i = false → encode i = [] ∧ ∀ v, decodeWord v ≠ i)

theorem nop : Statement .nop := ⟨fun _ => ⟨0b00, rfl, by decide⟩, fun h => absurd h (by decide)⟩
theorem tick : Statement .tick := ⟨fun _ => ⟨0b01, rfl, by decide⟩, fun h => absurd h (by decide)⟩
theorem edge : Statement .edge := ⟨fun _ => ⟨0b10, rfl, by decide⟩, fun h => absurd h (by decide)⟩
theorem reserved11 : Statement .reserved11 := ⟨fun _ => ⟨0b11, rfl, by decide⟩, fun h => absurd h (by decide)⟩
theorem tickSkip : Statement .tickSkip := ⟨fun h => absurd h (by decide), fun _ => ⟨rfl, by decide⟩⟩
theorem tickRun : Statement .tickRun := ⟨fun h => absurd h (by decide), fun _ => ⟨rfl, by decide⟩⟩
theorem rwRoll : Statement .rwRoll := ⟨fun h => absurd h (by decide), fun _ => ⟨rfl, by decide⟩⟩
theorem rwDec : Statement .rwDec := ⟨fun h => absurd h (by decide), fun _ => ⟨rfl, by decide⟩⟩
theorem dmuxStart : Statement .dmuxStart := ⟨fun h => absurd h (by decide), fun _ => ⟨rfl, by decide⟩⟩
theorem dmuxSegment : Statement .dmuxSegment := ⟨fun h => absurd h (by decide), fun _ => ⟨rfl, by decide⟩⟩
theorem dmuxIdle : Statement .dmuxIdle := ⟨fun h => absurd h (by decide), fun _ => ⟨rfl, by decide⟩⟩
theorem dmuxEnd : Statement .dmuxEnd := ⟨fun h => absurd h (by decide), fun _ => ⟨rfl, by decide⟩⟩
theorem decompose : Statement .decompose := ⟨fun h => absurd h (by decide), fun _ => ⟨rfl, by decide⟩⟩
theorem seglut : Statement .seglut := ⟨fun h => absurd h (by decide), fun _ => ⟨rfl, by decide⟩⟩

end Sys2Proof.Laws.EncodeRow
end

