-- ==== Sys2Proof/Tests/Slice0.lean ====
section
/-! SUPPORT. The model's own tests: the vectors of 95_test_vectors.md (their ids stand in the names' comments), words written
out from 30_encoding.md R70, and for each statement with hypotheses a state that meets them. -/

namespace Sys2Proof.Tests

open Sys2Proof Sys2Proof.Machine

/-- The reset state under a window of `w`, a refresh cycle of `r` and a tally of `tw` bits, with the default ROM. -/
def fresh (w r tw : Nat) : State := State.resetOf ⟨w, r, tw, segTableDefault⟩

/-- Some fields of the state an operation leaves. -/
def after {α : Type} (i : Instr) (s : State) (f : State → α) : Option α := (nextState (exec i s)).map f

/-! WellFormed: each check refuses an ill-formed term (30_encoding.md R78, 00_scope.md R10, R5). -/

theorem test_wellFormed_refuses_internal_row : WellFormed .rwRoll = false := by decide
theorem test_presentable_refuses_internal_row : Presentable .seglut = false := by decide
theorem test_presentable_refuses_reserved_word : Presentable .reserved11 = false := by decide
theorem test_config_refuses_W_zero : ¬ConfigOk ⟨0, 38, 16, segTableDefault⟩ := by decide
theorem test_config_refuses_R_25 : ¬ConfigOk ⟨1, 25, 16, segTableDefault⟩ := by decide
theorem test_config_refuses_TW_9 : ¬ConfigOk ⟨1, 26, 9, segTableDefault⟩ := by decide
theorem test_config_refuses_nine_entries : ¬ConfigOk ⟨1, 26, 10, segTableDefault.tail⟩ := by decide
theorem test_config_refuses_entry_256 : ¬ConfigOk ⟨1, 26, 10, 256 :: segTableDefault.tail⟩ := by decide
theorem test_config_admits_least_values : ConfigOk ⟨1, 26, 10, segTableDefault⟩ := by decide

/-! Words (30_encoding.md R70): bit 0 is the tick request, bit 1 the edge request. -/

theorem test_decode_nop : decode [0b00] = .ok (.nop, []) := by decide
theorem test_decode_tick : decode [0b01, 0b10] = .ok (.tick, [0b10]) := by decide
theorem test_decode_edge : decode [0b10] = .ok (.edge, []) := by decide
theorem test_decode_reserved : decode [0b11] = .ok (.reserved11, []) := by decide
theorem test_decode_no_word : decode [] = .error .noWord := by decide
theorem test_decodeBytes_no_word : decodeBytes [] = .error .noWord := by decide
theorem test_table_words : (List.range 4).map (decodeTableWord 8) = [some .nop, some .tick, some .edge, some .reserved11] := by
  decide
/-- 30_encoding.md R78: the internal rows have no encoding. -/
theorem test_internal_rows_have_no_word :
    [Instr.tickSkip, .tickRun, .rwRoll, .rwDec, .dmuxStart, .dmuxSegment, .dmuxIdle, .dmuxEnd, .decompose, .seglut].map
      encode = List.replicate 10 [] := by decide
/-- 95_test_vectors.md section 3: `EDGE EDGE EDGE TICK` packs to `0x6A`. -/
theorem test_pack_edge_edge_edge_tick : packBytes [0b10, 0b10, 0b10, 0b01] = [0x6A] := by decide
/-- P1: words `10 10 10 01 01 10 10 01 01`, bytes `6A 69 01`. -/
theorem test_pack_P1 : packBytes [0b10, 0b10, 0b10, 0b01, 0b01, 0b10, 0b10, 0b01, 0b01] = [0x6A, 0x69, 0x01] := by decide
theorem test_unpack_byte : unpackBytes [0x69] = [0b01, 0b10, 0b10, 0b01] := by decide

/-! Text (30_encoding.md R79, R80). -/

/-- The first two lines of P5a with a comment: `EDGES 2`, `TICK ; CLK 1`. -/
theorem test_assemble :
    assemble cfgDefault ['E', 'D', 'G', 'E', 'S', ' ', '2', '\n', 'T', 'I', 'C', 'K', ' ', ';', ' ', 'C', 'L', 'K'] =
      .ok [0x1A] := by decide
theorem test_assemble_rejects_lower_case : assemble cfgDefault ['n', 'o', 'p'] = .error .badLine := by decide
theorem test_assemble_rejects_missing_count : assemble cfgDefault ['T', 'I', 'C', 'K', 'S'] = .error .badLine := by decide

/-! NOP (R112) and the checks at step start (R175, R176). -/

/-- NP-1. -/
theorem test_nop : after .nop { fresh 2 38 16 with tally := 7, sdo := true, trace := [(.clk, true)] } id =
    some { fresh 2 38 16 with tally := 7, sdo := true } := by decide
/-- FL-1: WC = W = 2. -/
theorem test_nop_range_fault : after .nop { fresh 2 38 16 with wc := 2 } id =
    some { fresh 2 38 16 with wc := 2, faults := [.stateRange .wc 2] } := by decide

/-! EDGE (R101). -/

/-- ED-2. -/
theorem test_edge_counts : after .edge { fresh 2 38 16 with tally := 4, stat := true } (fun t => (t.tally, t.stat, t.trace)) =
    some (5, false, [(.stat, false)]) := by decide
/-- ED-5: TW = 10. -/
theorem test_edge_saturates : after .edge { fresh 2 38 10 with tally := 1023 } (fun t => (t.tally, t.stat, t.trace)) =
    some (1023, true, [(.stat, true)]) := by decide

/-! RESERVED_11 (R73, R176). -/

/-- RF-1. -/
theorem test_reserved_refused : after .reserved11 { fresh 2 38 16 with tally := 3 } id =
    some { fresh 2 38 16 with tally := 3, refused := true } := by decide

/-! TICK (R110). -/

/-- TK-3: a rollover and a START on one tick, W = 4. -/
theorem test_tick_rollover_and_start :
    after .tick { fresh 4 38 16 with clk := true, wc := 0, tally := 42 }
      (fun t => (t.clk, t.speed, t.tally, t.wc)) = some (false, 42, 0, 3) ∧
    after .tick { fresh 4 38 16 with clk := true, wc := 0, tally := 42 }
      (fun t => (t.dig, t.rc, t.trace)) = some (⟨0, 4, 2⟩, 1, [(.clk, false), (.deN, false), (.sb, true)]) := by decide
/-- FL-2: CUR_D = 3; CLK stays 1. -/
theorem test_tick_range_fault :
    after .tick { fresh 2 38 16 with clk := true, rc := 5, curD := 3 } (fun t => (t.clk, t.rc, t.faults)) =
    some (true, 5, [.stateRange .curD 3]) := by decide

/-! The micro-operations. -/

/-- TK-1, after the toggle. -/
theorem test_tickSkip : after .tickSkip { fresh 2 38 16 with clk := true, wc := 0, tally := 9 } id =
    some { fresh 2 38 16 with clk := true, wc := 0, tally := 9 } := by decide
/-- TK-2, after the toggle: WC 2, RC 5, W = 3. -/
theorem test_tickRun : after .tickRun { fresh 3 38 16 with wc := 2, rc := 5, curD := 0, curS := 3 }
      (fun t => (t.wc, t.rc, t.curD, t.curS)) = some (1, 6, 0, 4) := by decide
/-- RW-5, W = 10. -/
theorem test_rwRoll_clamps : after .rwRoll { fresh 10 38 16 with wc := 0, tally := 1000 }
      (fun t => (t.speed, t.tally, t.wc)) = some (999, 0, 9) := by decide
/-- RW-4, W = 10. -/
theorem test_rwRoll_999 : after .rwRoll { fresh 10 38 16 with wc := 0, tally := 999 }
      (fun t => (t.speed, t.tally, t.wc)) = some (999, 0, 9) := by decide
/-- RW-1. -/
theorem test_rwDec : after .rwDec { fresh 10 38 16 with wc := 3, tally := 8, speed := 1 }
      (fun t => (t.speed, t.tally, t.wc)) = some (1, 8, 2) := by decide
/-- DM-2. -/
theorem test_dmuxStart : after .dmuxStart { fresh 2 38 16 with speed := 509, curD := 0, curS := 0 }
      (fun t => ((t.dig, t.curD, t.curS), (t.deN, t.sb, t.trace))) =
    some ((⟨5, 0, 9⟩, 2, 7), (false, true, [(.deN, false), (.sb, true)])) := by decide
/-- FL-3: SPEED = 1000, WC 1, in a whole TICK. -/
theorem test_start_out_of_domain :
    after .tick { fresh 2 38 16 with clk := true, speed := 1000, wc := 1, dig := ⟨1, 2, 3⟩ }
      (fun t => (t.wc, t.dig, t.faults, t.rc)) = some (0, ⟨1, 2, 3⟩, [.decompDomain 1000], 1) := by decide
/-- DM-5. -/
theorem test_dmuxSegment_first :
    after .dmuxSegment { fresh 2 38 16 with rc := 1, dig := ⟨0, 0, 7⟩, sb := true }
      (fun t => ((t.curD, t.curS), (t.sb, t.sdo, t.trace))) =
    some ((0, 0), (false, true, [(.sb, false), (.sdo, true)])) := by decide
/-- DM-7: digit 2's pattern, bit 0. -/
theorem test_dmuxSegment_next_digit :
    after .dmuxSegment { fresh 2 38 16 with rc := 9, curD := 0, curS := 7, dig := ⟨1, 2, 3⟩ }
      (fun t => ((t.curD, t.curS), (t.sdo, t.trace))) = some ((1, 0), (true, [(.sdo, true)])) := by decide
/-- DM-10, in a whole TICK. -/
theorem test_idle_tick :
    after .tick { fresh 2 38 16 with clk := true, rc := 25, sdo := true, deN := false }
      (fun t => ((t.rc, t.sdo, t.deN), (t.curD, t.curS, t.trace))) = some ((26, true, false), (2, 7, [(.clk, false)])) := by
  decide
/-- 44_display_multiplexer.md R137: the action itself changes nothing. -/
theorem test_dmuxIdle : after .dmuxIdle { fresh 2 38 16 with rc := 30 } id = some { fresh 2 38 16 with rc := 30 } := by decide
/-- DM-13, R = 26: END is at RC 25, in a whole TICK. -/
theorem test_end_tick :
    after .tick { fresh 2 26 16 with clk := true, rc := 25, deN := false } (fun t => (t.deN, t.rc, t.trace)) =
    some (true, 0, [(.clk, false), (.deN, true)]) := by decide
theorem test_dmuxEnd : after .dmuxEnd { fresh 2 38 16 with rc := 37, deN := false } (fun t => (t.deN, t.trace)) =
    some (true, [(.deN, true)]) := by decide
/-- The decomposer's table: 990. -/
theorem test_decompose_990 : after .decompose { fresh 2 38 16 with speed := 990 } (fun t => t.dig) = some ⟨9, 9, 0⟩ := by decide
/-- The decomposer's table: 1023. -/
theorem test_decompose_1023 : after .decompose { fresh 2 38 16 with speed := 1023, dig := ⟨1, 2, 3⟩ }
      (fun t => (t.dig, t.faults)) = some (⟨1, 2, 3⟩, [.decompDomain 1023]) := by decide
/-- `SEGLUT(7) = 0x07`. -/
theorem test_seglut_7 : after .seglut { fresh 2 38 16 with dig := ⟨0, 0, 7⟩ } (fun t => t.romOut) = some (some 0x07) := by decide
/-- `SEGLUT(12)` gives FLT_ROM_INDEX and answers 0 (20_memory.md R50). -/
theorem test_seglut_12 : after .seglut { fresh 2 38 16 with dig := ⟨0, 0, 12⟩ } (fun t => (t.romOut, t.faults)) =
    some (some 0, [.romIndex 12]) := by decide
/-- RF-2: R = 25. -/
theorem test_bad_config_refused : after .tick (fresh 2 25 16) id = some { fresh 2 25 16 with refused := true } := by decide

/-! Steps. -/

/-- The first TICK after reset raises CLK (70_reset_and_hazards.md R203). -/
theorem test_step_tick_from_reset :
    (nextState (step (State.reset.withFetchWord 8 1))).map (fun t => (t.clk, t.trace, t.env)) =
      some (true, [(.clk, true)], []) := by decide
/-- Reset in the middle of a run (70_reset_and_hazards.md R201). -/
theorem test_step_reset_move :
    nextState (step { fresh 3 38 16 with tally := 9, faults := [.romIndex 10], env := [.reset, .op 0b01] }) =
      some { fresh 3 38 16 with env := [.op 0b01] } := by decide

/-! Witnesses: for each statement with hypotheses, a state that meets all of them; boundary values where clauses meet. -/

/-- A state in the middle of a frame, ready for a qualifying tick. -/
def inFrame : State := { fresh 2 38 16 with clk := true, wc := 1, rc := 1, deN := false, sb := true, tally := 5 }

theorem witness_PackedProgramDecodesToItself : ∀ i ∈ [Instr.edge, .edge, .tick, .nop, .reserved11], WellFormed i = true := by
  decide
theorem witness_StepPerformsThePresentedOperation :
    ({ inFrame with env := [.op 0b01, .reset] } : State).env = .op 0b01 :: [.reset] := by decide
theorem witness_PresentedTableWordIsPerformedNext : 0 < 4 ∧ decodeTableWord 8 0 = some .nop ∧ 3 < 4 ∧
    decodeTableWord 8 3 = some .reserved11 := by decide
theorem witness_StepWithNothingPresentedIsNop : inFrame.env = [] := by decide
theorem witness_ResetMoveStartsANewRun : ({ inFrame with env := [.reset, .op 0b10] } : State).env = .reset :: [.op 0b10] := by
  decide
theorem witness_Ready : Ready inFrame := by decide
theorem witness_Ready_at_the_bounds :
    Ready { fresh 1 26 10 with tally := 1023, rc := 25, dig := ⟨9, 9, 9⟩, speed := 1023 } := by decide
theorem witness_not_Legal_tally : ConfigOk (fresh 2 38 10).cfg ∧ ¬Legal { fresh 2 38 10 with tally := 1024 } := by decide
theorem witness_not_Legal_wc : ConfigOk (fresh 2 38 16).cfg ∧ ¬Legal { fresh 2 38 16 with wc := 2 } := by decide
theorem witness_not_Legal_rc : ConfigOk (fresh 2 38 16).cfg ∧ ¬Legal { fresh 2 38 16 with rc := 38 } := by decide
theorem witness_not_Legal_digit : ConfigOk (fresh 2 38 16).cfg ∧ ¬Legal { fresh 2 38 16 with dig := ⟨9, 9, 10⟩ } := by decide
theorem witness_BadConfigurationRefusesEveryWord : WellFormed .edge = true ∧ (fresh 2 25 16).cfg.R < 26 := by decide
theorem witness_PhaseSelectRows : 26 ≤ 38 ∧ selectPhase 38 24 = .dmuxSegment ∧ selectPhase 38 25 = .dmuxIdle ∧
    selectPhase 38 36 = .dmuxIdle ∧ selectPhase 38 37 = .dmuxEnd ∧ selectPhase 26 25 = .dmuxEnd := by decide
theorem witness_Tick_skip : Ready (fresh 2 38 16) ∧ (fresh 2 38 16).clk = false := by decide
theorem witness_Tick_run : Ready inFrame ∧ inFrame.clk = true := by decide
theorem witness_StartOnARolloverShowsTheNewSpeed :
    Ready { fresh 1 38 16 with clk := true, tally := 1000 } ∧ (fresh 1 38 16).wc = 0 ∧ (fresh 1 38 16).rc = 0 := by decide
theorem witness_EverySecondTickQualifies : ConfigOk cfgDefault ∧ Ready inFrame ∧ WellFormed .tick = true ∧
    after .tick inFrame (fun t => t.clk) = some false := by decide
theorem witness_WindowCountsDown : ConfigOk inFrame.cfg ∧ inFrame.wc ≠ 0 := by decide
theorem witness_WindowCountdownAtZeroFaults : ConfigOk (fresh 1 38 16).cfg ∧ (fresh 1 38 16).wc = 0 := by decide
/-- For the statements whose hypothesis is that an operation answers a next state: SpeedIsWrittenByRolloversOnly,
FaultAndRefusedNeverClear, TraceIsTheLevelChanges, OnlyTheListedWritersWrite. -/
theorem witness_exec_next : after .tickRun inFrame (fun t => (t.wc, t.rc)) = some (0, 2) := by decide
theorem witness_RolloverComesAfterTheWindow : Ready (fresh 2 38 16) ∧ (fresh 2 38 16).clk = false ∧ 1 ≤ (fresh 2 38 16).wc := by
  decide
theorem witness_TallyCountsTheEdgesOfAWindow : Ready (fresh 2 38 16) ∧
    (∀ i ∈ [Instr.edge, .tick, .edge, .tick, .nop, .tick], Presentable i = true) ∧
    qualifyingTicks (fresh 2 38 16).clk [.edge, .tick, .edge, .tick, .nop, .tick] ≤ (fresh 2 38 16).wc := by decide
theorem witness_RolloverCapturesTheEdgesOfTheWindow : Ready (fresh 2 38 16) ∧ (fresh 2 38 16).tally = 0 ∧
    (∀ i ∈ [Instr.edge, .tick, .edge, .tick, .nop, .tick], Presentable i = true) ∧
    qualifyingTicks (fresh 2 38 16).clk [.edge, .tick, .edge, .tick, .nop, .tick] = (fresh 2 38 16).wc ∧
    qualifyingTicks (fresh 2 38 16).clk ([.edge, .tick, .edge, .tick, .nop, .tick] ++ [.tick]) = (fresh 2 38 16).wc + 1 := by
  decide
theorem witness_Coincident_rollover : Ready { fresh 1 38 16 with clk := true, tally := 2 } ∧ (fresh 1 38 16).wc = 0 := by decide
theorem witness_Coincident_no_rollover : Ready inFrame ∧ ¬(inFrame.clk = true ∧ inFrame.wc = 0) := by decide
theorem witness_StartOpensAFrame_in_domain :
    ConfigOk cfgDefault ∧ ({ inFrame with speed := 999 } : State).speed.toNat ≤ 999 := by decide
theorem witness_StartOpensAFrame_out_of_domain :
    ConfigOk cfgDefault ∧ 1000 ≤ ({ inFrame with speed := 1000 } : State).speed.toNat := by decide
theorem witness_DataEnableFallsBeforeTheStartBitRises :
    Inv { fresh 2 38 16 with clk := true } ∧ (fresh 2 38 16).rc = 0 := by decide
theorem witness_SegmentShiftsOneBit_wrap : ConfigOk inFrame.cfg ∧ inFrame.curD ≠ 3 ∧ inFrame.curS = 7 ∧
    (0 : BitVec 2).toNat = (inFrame.curD.toNat + 1) % 3 ∧ inFrame.dig.d0 = 0 ∧ inFrame.cfg.segTable[0]? = some 0x3F := by decide
theorem witness_SegmentShiftsOneBit_within : ConfigOk inFrame.cfg ∧
    (7 : BitVec 3).toNat = ({ inFrame with curD := 1, curS := 6 } : State).curS.toNat + 1 ∧
    ({ inFrame with dig := ⟨0, 9, 0⟩ } : State).dig.d1 = 9 ∧ inFrame.cfg.segTable[9]? = some 0x6F := by decide
theorem witness_SegmentFaults_cursor : ConfigOk inFrame.cfg ∧ ({ inFrame with curD := 3 } : State).curD = 3 := by decide
theorem witness_SegmentFaults_digit : ConfigOk inFrame.cfg ∧ inFrame.curD ≠ 3 ∧
    digEntry ⟨10, 0, 0⟩ (nextCurD inFrame.curD inFrame.curS) = some 10 ∧ 10 ≤ (10 : Digit).toNat := by decide
theorem witness_IdleHoldsPinsAndCursor_first :
    Ready { inFrame with rc := 25 } ∧ 25 ≤ ({ inFrame with rc := 25 } : State).cfg.R - 2 := by decide
theorem witness_IdleHoldsPinsAndCursor_last : Ready { inFrame with rc := 36 } ∧ 36 = inFrame.cfg.R - 2 := by decide
theorem witness_EndClosesTheFrame : Ready { inFrame with rc := 37 } ∧ 37 = inFrame.cfg.R - 1 := by decide
theorem witness_Rc_advances : WellFormed .tick = true ∧ Ready inFrame ∧
    after .tick inFrame (fun t => t.rc) = some 2 := by decide
theorem witness_Rc_holds : WellFormed .edge = true ∧ after .edge inFrame (fun t => t.rc) = some 1 := by decide
theorem witness_DigitsChangeOnlyAtFrameStart : Ready { fresh 2 38 16 with clk := true, speed := 321 } ∧
    after .tick { fresh 2 38 16 with clk := true, speed := 321 } (fun t => t.dig) = some ⟨3, 2, 1⟩ := by decide
theorem witness_FrameOutputs_edge : Ready inFrame ∧ after .edge inFrame (fun t => t.trace) = some [(.stat, true)] := by decide
theorem witness_FrameOutputs_tick : Ready inFrame ∧
    after .tick inFrame (fun t => t.trace) = some [(.clk, false), (.sb, false), (.sdo, true)] := by decide
theorem witness_FrameTimeline : Inv (fresh 2 38 16) ∧ (fresh 2 38 16).clk = false ∧ (fresh 2 38 16).rc = 0 ∧
    0 < (fresh 2 38 16).cfg.R ∧ 37 < (fresh 2 38 16).cfg.R := by decide
theorem witness_CursorVisitsEveryPositionOnce : Ready (fresh 2 38 16) ∧ (fresh 2 38 16).clk = false ∧
    (fresh 2 38 16).rc = 0 := by decide
theorem witness_Decompose_in_domain : ConfigOk cfgDefault ∧ (999 : BitVec 10).toNat ≤ 999 := by decide
theorem witness_Decompose_out_of_domain : ConfigOk cfgDefault ∧ 999 < (1000 : BitVec 10).toNat := by decide
theorem witness_DecompositionIsABijection : (9 : Digit).toNat ≤ 9 ∧ (0 : Digit).toNat ≤ 9 := by decide
theorem witness_Seglut_entry : ConfigOk inFrame.cfg ∧ digEntry ⟨0, 0, 9⟩ inFrame.curD = some 9 ∧
    inFrame.cfg.segTable[9]? = some 0x6F := by decide
theorem witness_Seglut_fault : ConfigOk inFrame.cfg ∧ digEntry ⟨0, 0, 15⟩ inFrame.curD = some 15 ∧ 10 ≤ (15 : Digit).toNat := by
  decide
theorem witness_IllegalStateRecordsStateRange : Presentable .edge = true ∧ ConfigOk (fresh 2 38 16).cfg ∧
    ¬Legal { fresh 2 38 16 with curD := 3 } := by decide
theorem witness_FaultAndRefusedNeverClear :
    after .edge { inFrame with faults := [.romIndex 10], refused := true } (fun t => (t.faults, t.refused)) =
      some ([.romIndex 10], true) := by decide
theorem witness_OneFaultCode_refused : ¬ConfigOk (fresh 0 38 16).cfg ∧
    after .tick (fresh 0 38 16) (fun t => (t.faults, t.refused)) = some ([], true) := by decide
theorem witness_ReachableStatesRecordNoFault : Inv (fresh 2 38 16) ∧ GoodFinal (fresh 2 38 16) ∧
    ({ fresh 2 38 16 with env := [.op 0b10] } : State).env.head? ≠ some (.op 0b11) ∧
    (nextState (step { fresh 2 38 16 with env := [.op 0b10] })).map (fun t => t.tally) = some 1 := by decide
theorem witness_CounterWidthsAreCeilLogTwo : 2 ≤ 38 ∧ 38 ≤ 2 ^ 6 ∧ 2 ^ 5 < 38 ∧ modulusWidth 2 = 1 := by decide
theorem witness_ResetMeetsTheInvariants : ConfigOk ⟨1, 26, 10, segTableDefault⟩ := by decide
theorem witness_EveryStepKeepsTheInvariant : Inv { inFrame with env := [.op 0b01] } ∧
    (nextState (step { inFrame with env := [.op 0b01] })).map (fun t => (t.rc, t.sb)) = some (2, false) := by decide
theorem witness_EveryStepKeepsTheFrame : Inv { inFrame with env := [.op 0b01] } ∧ FrameInv { inFrame with env := [.op 0b01] } ∧
    (nextState (step { inFrame with env := [.op 0b01] })).map (fun t => (t.curD, t.curS)) = some (0, 0) := by decide

end Sys2Proof.Tests
end

section
/-! SUPPORT. The statements of 30_encoding.md: the operation word, the reserved word, the pseudo-operations and the rows of
the selects WC and RC. -/

namespace Sys2Proof.Machine

/-! The operation word (R70, R72, R78). -/

/-- The family EncodeRow, over every row of the opcode table. -/
theorem encodeRow_statement : ∀ i : Instr, Laws.EncodeRow.Statement i
  | .nop => Laws.EncodeRow.nop
  | .tick => Laws.EncodeRow.tick
  | .edge => Laws.EncodeRow.edge
  | .reserved11 => Laws.EncodeRow.reserved11
  | .tickSkip => Laws.EncodeRow.tickSkip
  | .tickRun => Laws.EncodeRow.tickRun
  | .rwRoll => Laws.EncodeRow.rwRoll
  | .rwDec => Laws.EncodeRow.rwDec
  | .dmuxStart => Laws.EncodeRow.dmuxStart
  | .dmuxSegment => Laws.EncodeRow.dmuxSegment
  | .dmuxIdle => Laws.EncodeRow.dmuxIdle
  | .dmuxEnd => Laws.EncodeRow.dmuxEnd
  | .decompose => Laws.EncodeRow.decompose
  | .seglut => Laws.EncodeRow.seglut

/-- No word spells an internal row (R78). -/
theorem wellFormed_decodeWord (w : OpWord) : WellFormed (decodeWord w) = true := by
  by_contra hill
  obtain ⟨-, hnoWord⟩ := (encodeRow_statement (decodeWord w)).2 (Bool.eq_false_of_not_eq_true hill)
  exact hnoWord w rfl

theorem encode_decodeWord (w : OpWord) : encode (decodeWord w) = [w] := by
  obtain ⟨v, hencode, hunique⟩ := (encodeRow_statement (decodeWord w)).1 (wellFormed_decodeWord w)
  rw [hencode, (hunique w).1 rfl]

theorem decode_encode {i : Instr} (h : WellFormed i = true) : decode (encode i) = .ok (i, []) := by
  obtain ⟨w, hencode, hunique⟩ := (encodeRow_statement i).1 h
  rw [hencode, decode, (hunique w).2 rfl]

/-- Settles O2, from what the family EncodeRow says of each row. -/
theorem everyWordIsExactlyOneRow : Obligations.EveryWordIsExactlyOneRow :=
  ⟨fun w => ⟨wellFormed_decodeWord w, encode_decodeWord w⟩, fun _ => decode_encode⟩

/-! The pseudo-operations (R80). -/

/-- `QTICKS n` is `2n` timer ticks. -/
theorem expandQticks_eq_replicate (n : Nat) : expandQticks n = List.replicate (2 * n) .tick := by
  induction n with
  | zero => rfl
  | succ n ih => rw [expandQticks, ih, Nat.mul_succ, List.replicate_succ, List.replicate_succ]

/-- Settles O4: the counts of the `QTICK` lines are those of `expandQticks`, the others stand in the table. -/
theorem pseudoOperationsExpand : Obligations.PseudoOperationsExpand :=
  fun c n => ⟨rfl, rfl, rfl, expandQticks_eq_replicate n, expandQticks_eq_replicate c.R, rfl⟩

/-! The reserved word (R73). -/

theorem exec_reserved11 (s : State) : exec .reserved11 s = .next (refuse (enterOperation s)) := rfl

/-- What a refused step leaves: `REFUSED` set and its outputs empty. -/
theorem refuse_enterOperation (s : State) :
    refuse (enterOperation s) = { s with refused := true, trace := [], romOut := none } := rfl

/-- Settles O13. -/
theorem reservedWordSetsRefused : Obligations.ReservedWordSetsRefused := by
  refine ⟨rfl, fun s => ⟨none, ?_⟩⟩
  rw [exec_reserved11, refuse_enterOperation]

/-! Select WC (R76). -/

theorem selectWindow_zero : selectWindow 0 = .rwRoll := rfl

theorem selectWindow_of_ne_zero {wc : Nat} (h : wc ≠ 0) : selectWindow wc = .rwDec := if_neg h

/-- Settles O16. -/
theorem windowSelectRows : Obligations.WindowSelectRows :=
  fun _ => ⟨fun h => h ▸ selectWindow_zero, selectWindow_of_ne_zero⟩

/-! Select RC (R77). -/

/-- The row each value of `RC` selects, from the phase it is in. -/
theorem selectPhase_cases {R rc : Nat} (hR : 26 ≤ R) (hrc : rc < R) :
    rc = 0 ∧ selectPhase R rc = .dmuxStart ∨
    (1 ≤ rc ∧ rc ≤ 24) ∧ selectPhase R rc = .dmuxSegment ∨
    (25 ≤ rc ∧ rc ≤ R - 2) ∧ selectPhase R rc = .dmuxIdle ∨
    rc = R - 1 ∧ selectPhase R rc = .dmuxEnd := by
  obtain ⟨h0, hp⟩ | ⟨hlo, hhi, hp⟩ | ⟨hlo, hhi, hp⟩ | ⟨hlast, hp⟩ := phaseOf_cases hR hrc
  · exact .inl ⟨h0, by rw [selectPhase, hp]⟩
  · exact .inr (.inl ⟨⟨hlo, hhi⟩, by rw [selectPhase, hp]⟩)
  · exact .inr (.inr (.inl ⟨⟨hlo, hhi⟩, by rw [selectPhase, hp]⟩))
  · exact .inr (.inr (.inr ⟨hlast, by rw [selectPhase, hp]⟩))

/-- DMUX_IDLE is selected on `25..R−2` only. -/
theorem le_of_selectPhase_eq_dmuxIdle {R rc : Nat} (hR : 26 ≤ R) (hrc : rc < R) (h : selectPhase R rc = .dmuxIdle) :
    25 ≤ rc ∧ rc ≤ R - 2 := by
  obtain ⟨-, hsel⟩ | ⟨-, hsel⟩ | ⟨hrange, -⟩ | ⟨-, hsel⟩ := selectPhase_cases hR hrc
  case inr.inr.inl => exact hrange
  all_goals cases hsel.symm.trans h

/-- Settles O17: the range of DMUX_IDLE, `25..R−2`, is empty for `R = 26`. -/
theorem phaseSelectRows : Obligations.PhaseSelectRows := by
  intro R rc hR hrc
  refine ⟨selectPhase_cases hR hrc, fun h26 hidle => ?_⟩
  obtain ⟨hlo, hhi⟩ := le_of_selectPhase_eq_dmuxIdle hR hrc hidle
  omega

end Sys2Proof.Machine
end

section
/-! SUPPORT. The statement of 41_edge_counter.md: EDGE counts one edge and toggles STAT. -/

namespace Sys2Proof.Machine

theorem exec_edge (s : State) : exec .edge s = .next (performOperation countEdge s) := rfl

/-- EDGE from a state in range under a good configuration (R101): `TALLY` and `STAT` are written, the change of `STAT` is
the whole trace, and nothing else of the spec's state changes. -/
theorem exec_edge_of_ready {s : State} (h : Ready s) :
    exec .edge s = .next { s with
      tally := satInc s.cfg.TW s.tally
      stat := !s.stat
      trace := [(.stat, !s.stat)]
      romOut := none } := by
  rw [exec_edge, performOperation_ready countEdge h, countEdge_eq]
  rfl

/-- EDGE from a state out of range (R101, R175): the state-range check stops it before it counts. -/
theorem exec_edge_of_not_legal {s : State} (hc : ConfigOk s.cfg) (hl : ¬Legal s) :
    exec .edge s = .next (raiseAll (rangeFaults s) (enterOperation s)) := by
  rw [exec_edge, performOperation_illegal countEdge hc hl]

/-- Settles O12: the saturating increment is `satInc`, whose branches the statement writes out. -/
theorem edgeCountsOneAndTogglesStat : Obligations.EdgeCountsOneAndTogglesStat := by
  refine ⟨rfl, fun s hready => ⟨none, ?_⟩, fun s hc hl => ?_⟩
  · rw [exec_edge_of_ready hready, satInc]
  · exact ⟨_, exec_edge_of_not_legal hc hl, rangeFault_raiseAll hl⟩

end Sys2Proof.Machine
end

section
/-! SUPPORT. The statements of 42_tick_scheduler.md: NOP changes no state, and TICK toggles CLK and then runs the operations
the selects choose. -/

namespace Sys2Proof.Machine

/-! NOP (R112). -/

theorem exec_nop (s : State) : exec .nop s = .next (performOperation idleWait s) := rfl

/-- NOP from a state in range under a good configuration (R112) does no more than enter its operation. -/
theorem exec_nop_of_ready {s : State} (h : Ready s) : exec .nop s = .next (enterOperation s) := by
  rw [exec_nop, performOperation_ready idleWait h, idleWait]

/-- NOP from a state out of range (R112, R175): the state-range check still applies. -/
theorem exec_nop_of_not_legal {s : State} (hc : ConfigOk s.cfg) (hl : ¬Legal s) :
    exec .nop s = .next (raiseAll (rangeFaults s) (enterOperation s)) := by
  rw [exec_nop, performOperation_illegal idleWait hc hl]

/-- Settles O11: entering an operation empties the step's outputs and leaves the spec's state. -/
theorem nopChangesNoState : Obligations.NopChangesNoState :=
  ⟨rfl, fun _ hready => ⟨none, exec_nop_of_ready hready⟩,
    fun _ hc hl => ⟨_, exec_nop_of_not_legal hc hl, rangeFault_raiseAll hl⟩⟩

/-! The operations the selects choose, under a good configuration (R76, R77). -/

theorem exec_rwRoll (s : State) : exec .rwRoll s = .next (performMicro rwRoll s) := rfl
theorem exec_rwDec (s : State) : exec .rwDec s = .next (performMicro rwDec s) := rfl
theorem exec_dmuxStart (s : State) : exec .dmuxStart s = .next (performMicro dmuxStart s) := rfl
theorem exec_dmuxSegment (s : State) : exec .dmuxSegment s = .next (performMicro dmuxSegment s) := rfl
theorem exec_dmuxIdle (s : State) : exec .dmuxIdle s = .next (performMicro dmuxIdle s) := rfl
theorem exec_dmuxEnd (s : State) : exec .dmuxEnd s = .next (performMicro dmuxEnd s) := rfl

/-- The operation select WC chooses is RATE_WINDOW. -/
theorem exec_selectWindow {s : State} (hc : ConfigOk s.cfg) : exec (selectWindow s.wc) s = .next (rateWindow s) := by
  rw [rateWindow]
  by_cases hwc : s.wc = 0
  · rw [if_pos hwc, hwc, selectWindow_zero, exec_rwRoll, performMicro_ok rwRoll hc]
  · rw [if_neg hwc, selectWindow_of_ne_zero hwc, exec_rwDec, performMicro_ok rwDec hc]

/-- The operation select RC chooses is the action of the phase. -/
theorem exec_selectPhase (R rc : Nat) {s : State} (hc : ConfigOk s.cfg) :
    exec (selectPhase R rc) s = .next (phaseAction (phaseOf R rc) s) := by
  rw [selectPhase]
  cases phaseOf R rc with
  | start => rw [exec_dmuxStart, performMicro_ok dmuxStart hc, phaseAction]
  | segment => rw [exec_dmuxSegment, performMicro_ok dmuxSegment hc, phaseAction]
  | idle => rw [exec_dmuxIdle, performMicro_ok dmuxIdle hc, phaseAction]
  | finish => rw [exec_dmuxEnd, performMicro_ok dmuxEnd hc, phaseAction]

/-! What the two processes leave of `CLK` and of the step's trace so far: they drive no `CLK`, and the trace only grows. -/

@[simp] theorem rateWindow_cfg (s : State) : (rateWindow s).cfg = s.cfg := by rw [rateWindow_eq]
@[simp] theorem rateWindow_clk (s : State) : (rateWindow s).clk = s.clk := by rw [rateWindow_eq]
@[simp] theorem rateWindow_trace (s : State) : (rateWindow s).trace = s.trace := by rw [rateWindow_eq]

@[simp] theorem decomposeSpeed_clk (s : State) : (decomposeSpeed s).clk = s.clk := by rw [decomposeSpeed_frame]
@[simp] theorem decomposeSpeed_trace (s : State) : (decomposeSpeed s).trace = s.trace := by rw [decomposeSpeed_frame]

@[simp] theorem segLut_clk (a : Digit) (s : State) : (segLut a s).clk = s.clk := by
  unfold segLut; split <;> simp
@[simp] theorem segLut_trace (a : Digit) (s : State) : (segLut a s).trace = s.trace := by
  unfold segLut; split <;> simp

/-- A drive only appends to the trace. -/
theorem trace_isPrefix_drive (p : Pin) (v : Level) (s : State) : s.trace <+: (drive p v s).trace :=
  ⟨_, (drive_trace p v s).symm⟩

/-- DMUX_SEGMENT (44_display_multiplexer.md R134): it stops at the cursor that has no entry of DIG; from any other it drives
`SB`, advances the cursor, and drives `SDO` from the entry there. -/
theorem dmuxSegment_cases (s : State) :
    (s.curD = 3 ∧ dmuxSegment s = raise (.stateRange .curD s.curD.toNat) s) ∨
    (s.curD ≠ 3 ∧ dmuxSegment s = shiftOut (segmentDigit s) (advance (drive .sb false s))) := by
  by_cases hd : s.curD = 3
  · exact .inl ⟨hd, if_pos hd⟩
  · have hentry : digEntry s.dig (nextCurD s.curD s.curS) = some (segmentDigit s) := by
      rw [segmentDigit, digEntry_eq (nextCurD_ne_three hd s.curS), Option.getD_some]
    refine .inr ⟨hd, ?_⟩
    rw [dmuxSegment, if_neg hd]
    simp [advance, State.setCursor, hentry]

theorem dmuxSegment_clk (s : State) : (dmuxSegment s).clk = s.clk := by
  obtain ⟨-, h⟩ | ⟨-, h⟩ := dmuxSegment_cases s <;> simp [h, advance, shiftOut]

theorem trace_isPrefix_dmuxSegment (s : State) : s.trace <+: (dmuxSegment s).trace := by
  obtain ⟨-, h⟩ | ⟨-, h⟩ := dmuxSegment_cases s <;> simp [h, advance, shiftOut]

/-- The Display Multiplexer does not drive `CLK`. -/
theorem phaseAction_clk (p : Phase) (s : State) : (phaseAction p s).clk = s.clk := by
  cases p with
  | start => simp [phaseAction, dmuxStart_eq]
  | segment => exact dmuxSegment_clk s
  | idle => rfl
  | finish => exact drive_deN_clk true s

/-- A phase's action only appends to the trace. -/
theorem trace_isPrefix_phaseAction (p : Phase) (s : State) : s.trace <+: (phaseAction p s).trace := by
  cases p with
  | start => simp [phaseAction, dmuxStart_eq]
  | segment => exact trace_isPrefix_dmuxSegment s
  | idle => exact ⟨[], List.append_nil _⟩
  | finish => exact trace_isPrefix_drive .deN true s

/-- TICK_RUN (R113) by the rows its selects choose: the operation of select WC, then that of select RC, then the advance of
`RC`; the two leave `CLK` and only append to the trace. -/
theorem tickRun_by_selects {s : State} (hc : ConfigOk s.cfg) : ∃ s1 s2 : State,
    exec (selectWindow s.wc) s = .next s1 ∧ exec (selectPhase s1.cfg.R s1.rc) s1 = .next s2 ∧
    tickRun s = { s2 with rc := (s2.rc + 1) % s2.cfg.R } ∧ s2.clk = s.clk ∧ s.trace <+: s2.trace := by
  refine ⟨rateWindow s, _, exec_selectWindow hc, exec_selectPhase _ _ (by rwa [rateWindow_cfg]), rfl, ?_, ?_⟩
  · rw [phaseAction_clk, rateWindow_clk]
  · rw [← rateWindow_trace s]; exact trace_isPrefix_phaseAction _ _

/-! TICK (R110). -/

theorem exec_tick (s : State) : exec .tick s = .next (performOperation schedulerTick s) := rfl

/-- TICK from CLK = 0 (R110): the toggle is all. -/
theorem exec_tick_skip {s : State} (h : Ready s) (hclk : s.clk = false) :
    exec .tick s = .next { s with clk := true, trace := [(.clk, true)], romOut := none } := by
  rw [exec_tick, performOperation_ready schedulerTick h, schedulerTick_skip (s := enterOperation s) hclk]
  rfl

/-- The state TICK_RUN starts from in a qualifying tick (R110, R111): toggled, with that change as the trace so far. -/
def toggledLow (s : State) : State := { s with clk := false, trace := [(.clk, false)], romOut := none }

/-- TICK from CLK = 1 (R110): the toggle, then TICK_RUN. -/
theorem exec_tick_run {s : State} (h : Ready s) (hclk : s.clk = true) :
    exec .tick s = .next (tickRun (toggledLow s)) := by
  rw [exec_tick, performOperation_ready schedulerTick h, schedulerTick_run (s := enterOperation s) hclk]
  rfl

/-- TICK from a state out of range (R110, R175): the state-range check stops it before the toggle. -/
theorem exec_tick_of_not_legal {s : State} (hc : ConfigOk s.cfg) (hl : ¬Legal s) :
    exec .tick s = .next (raiseAll (rangeFaults s) (enterOperation s)) := by
  rw [exec_tick, performOperation_illegal schedulerTick hc hl]

/-- Settles O18: from CLK = 1, TICK is TICK_RUN on the toggled state, whose trace holds the CLK change alone. -/
theorem tickTogglesThenRunsBothProcesses : Obligations.TickTogglesThenRunsBothProcesses := by
  refine ⟨rfl, fun s hready hclk => ⟨none, exec_tick_skip hready hclk⟩, fun s hready hclk => ?_,
    fun s hc hl => ⟨_, exec_tick_of_not_legal hc hl, rangeFault_raiseAll hl⟩⟩
  obtain ⟨s1, s2, hwindow, hphase, hrun, hlow, es, htrace⟩ := tickRun_by_selects (s := toggledLow s) hready.1
  exact ⟨s1, s2, hwindow, hphase, hrun ▸ exec_tick_run hready hclk, hlow, es, htrace.symm⟩

end Sys2Proof.Machine
end

section
/-! SUPPORT. The statements of 43_rate_window.md: the rollover and the countdown, each with the whole state it leaves. -/

namespace Sys2Proof.Machine

/-- RW_ROLL under a good configuration (R121): the capture, the reset of the tally and the reload are its only writes. -/
theorem exec_rwRoll_eq {s : State} (hc : ConfigOk s.cfg) :
    exec .rwRoll s = .next { s with speed := clampSpeed s.tally, tally := 0, wc := s.cfg.W - 1 } := by
  rw [exec_rwRoll, performMicro_ok rwRoll hc, rwRoll_eq]

/-- RW_DEC under a good configuration, from a window that is not over (R123): the countdown is its only write. -/
theorem exec_rwDec_eq {s : State} (hc : ConfigOk s.cfg) (hwc : s.wc ≠ 0) :
    exec .rwDec s = .next { s with wc := s.wc - 1 } := by
  rw [exec_rwDec, performMicro_ok rwDec hc, rwDec_eq hwc]

/-- Settles O21: the value captured, `clampSpeed` of the tally, is `min(TALLY, 999)` by definition. -/
theorem rolloverCapturesResetsReloads : Obligations.RolloverCapturesResetsReloads :=
  ⟨selectWindow_zero, fun _ => exec_rwRoll_eq⟩

/-- Settles O22: away from WC = 0 the select and the operation take the same branch. -/
theorem windowCountsDown : Obligations.WindowCountsDown :=
  fun _ hc hwc => ⟨selectWindow_of_ne_zero hwc, exec_rwDec_eq hc hwc⟩

end Sys2Proof.Machine
end

section
/-! SUPPORT. The statements of 44_display_multiplexer.md: what each phase does, and the tick that runs it. -/

namespace Sys2Proof.Machine

/-! What RATE_WINDOW, DECOMPOSE and SEGLUT leave to the Display Multiplexer (`cfg`, `clk` and `trace` stand above). -/

@[simp] theorem rateWindow_dig (s : State) : (rateWindow s).dig = s.dig := by rw [rateWindow_eq]
@[simp] theorem rateWindow_rc (s : State) : (rateWindow s).rc = s.rc := by rw [rateWindow_eq]
@[simp] theorem rateWindow_curD (s : State) : (rateWindow s).curD = s.curD := by rw [rateWindow_eq]
@[simp] theorem rateWindow_curS (s : State) : (rateWindow s).curS = s.curS := by rw [rateWindow_eq]
@[simp] theorem rateWindow_stat (s : State) : (rateWindow s).stat = s.stat := by rw [rateWindow_eq]
@[simp] theorem rateWindow_deN (s : State) : (rateWindow s).deN = s.deN := by rw [rateWindow_eq]
@[simp] theorem rateWindow_sb (s : State) : (rateWindow s).sb = s.sb := by rw [rateWindow_eq]
@[simp] theorem rateWindow_sdo (s : State) : (rateWindow s).sdo = s.sdo := by rw [rateWindow_eq]

@[simp] theorem decomposeSpeed_cfg (s : State) : (decomposeSpeed s).cfg = s.cfg := by rw [decomposeSpeed_frame]
@[simp] theorem decomposeSpeed_rc (s : State) : (decomposeSpeed s).rc = s.rc := by rw [decomposeSpeed_frame]
@[simp] theorem decomposeSpeed_deN (s : State) : (decomposeSpeed s).deN = s.deN := by rw [decomposeSpeed_frame]
@[simp] theorem decomposeSpeed_sb (s : State) : (decomposeSpeed s).sb = s.sb := by rw [decomposeSpeed_frame]
@[simp] theorem decomposeSpeed_sdo (s : State) : (decomposeSpeed s).sdo = s.sdo := by rw [decomposeSpeed_frame]

@[simp] theorem segLut_cfg (a : Digit) (s : State) : (segLut a s).cfg = s.cfg := by
  unfold segLut; split <;> simp
@[simp] theorem segLut_rc (a : Digit) (s : State) : (segLut a s).rc = s.rc := by
  unfold segLut; split <;> simp

/-! Dispatch and the advance of `RC` (R130, R139). -/

theorem dmuxSegment_rc (s : State) : (dmuxSegment s).rc = s.rc := by
  obtain ⟨-, h⟩ | ⟨-, h⟩ := dmuxSegment_cases s <;> simp [h, advance, shiftOut]

theorem dmuxSegment_cfg (s : State) : (dmuxSegment s).cfg = s.cfg := by
  obtain ⟨-, h⟩ | ⟨-, h⟩ := dmuxSegment_cases s <;> simp [h, advance, shiftOut]

/-- No phase writes `RC`: its advance belongs to DISPLAY_MUX. -/
theorem phaseAction_rc (p : Phase) (s : State) : (phaseAction p s).rc = s.rc := by
  cases p with
  | start => simp [phaseAction, dmuxStart_eq]
  | segment => exact dmuxSegment_rc s
  | idle => rfl
  | finish => exact drive_rc .deN true s

theorem phaseAction_cfg (p : Phase) (s : State) : (phaseAction p s).cfg = s.cfg := by
  cases p with
  | start => simp [phaseAction, dmuxStart_eq]
  | segment => exact dmuxSegment_cfg s
  | idle => rfl
  | finish => exact drive_cfg .deN true s

/-- DISPLAY_MUX (R130): the action of the phase, then the next value of `RC`, computed from the `RC` at entry. -/
theorem displayMux_eq (s : State) :
    displayMux s = (phaseAction (phaseOf s.cfg.R s.rc) s).setRc ((s.rc + 1) % s.cfg.R) := by
  rw [displayMux, advanceRc, phaseAction_rc, phaseAction_cfg]

/-- A refresh cycle holds the 26 ticks of START, SEGMENT and END (00_scope.md R5). -/
theorem refreshCycle_ge_of_ready {s : State} : Ready s → 26 ≤ s.cfg.R := fun ⟨⟨_, hR, _⟩, _⟩ => hR

/-- The state at the entry of DISPLAY_MUX in a qualifying tick from `s` (42_tick_scheduler.md R113). -/
def muxEntry (s : State) : State := rateWindow (toggledLow s)

@[simp] theorem muxEntry_cfg (s : State) : (muxEntry s).cfg = s.cfg := rateWindow_cfg _
@[simp] theorem muxEntry_dig (s : State) : (muxEntry s).dig = s.dig := rateWindow_dig _
@[simp] theorem muxEntry_rc (s : State) : (muxEntry s).rc = s.rc := rateWindow_rc _
@[simp] theorem muxEntry_curD (s : State) : (muxEntry s).curD = s.curD := rateWindow_curD _
@[simp] theorem muxEntry_curS (s : State) : (muxEntry s).curS = s.curS := rateWindow_curS _
@[simp] theorem muxEntry_stat (s : State) : (muxEntry s).stat = s.stat := rateWindow_stat _
@[simp] theorem muxEntry_deN (s : State) : (muxEntry s).deN = s.deN := rateWindow_deN _
@[simp] theorem muxEntry_sb (s : State) : (muxEntry s).sb = s.sb := rateWindow_sb _
@[simp] theorem muxEntry_sdo (s : State) : (muxEntry s).sdo = s.sdo := rateWindow_sdo _
@[simp] theorem muxEntry_trace (s : State) : (muxEntry s).trace = [(.clk, false)] := rateWindow_trace _

/-- A qualifying tick in phase `p` (R130): the action of `p` at the entry of DISPLAY_MUX, then the advance of `RC`. -/
theorem exec_tick_phase {s : State} {p : Phase} (h : Ready s) (hclk : s.clk = true) (hp : phaseOf s.cfg.R s.rc = p) :
    exec .tick s = .next ((phaseAction p (muxEntry s)).setRc ((s.rc + 1) % s.cfg.R)) := by
  rw [exec_tick_run h hclk, tickRun, displayMux_eq, ← muxEntry, muxEntry_cfg, muxEntry_rc, hp]

/-! DMUX_START (R131, R133). -/

theorem phaseOf_start (R : Nat) : phaseOf R 0 = .start := rfl

/-- DMUX_START of a `SPEED` that three digits show. -/
theorem exec_dmuxStart_of_le {s : State} (hc : ConfigOk s.cfg) (hspeed : s.speed.toNat ≤ 999) :
    exec .dmuxStart s = .next { s with
      dig := digitsOf s.speed
      curD := 2
      curS := 7
      deN := false
      sb := true
      trace := s.trace ++ (if s.deN = false then [] else [(.deN, false)]) ++
        (if s.sb = true then [] else [(.sb, true)]) } := by
  rw [exec_dmuxStart, performMicro_ok dmuxStart hc, dmuxStart_eq, decomposeSpeed_eq hspeed]

/-- DMUX_START of a `SPEED` out of the domain of DECOMPOSE: the fault takes the place of the digits. -/
theorem exec_dmuxStart_of_gt {s : State} (hc : ConfigOk s.cfg) (hspeed : 999 < s.speed.toNat) :
    exec .dmuxStart s = .next { s with
      faults := (raise (.decompDomain s.speed) s).faults
      curD := 2
      curS := 7
      deN := false
      sb := true
      trace := s.trace ++ (if s.deN = false then [] else [(.deN, false)]) ++
        (if s.sb = true then [] else [(.sb, true)]) } := by
  rw [exec_dmuxStart, performMicro_ok dmuxStart hc, dmuxStart_eq, decomposeSpeed_out hspeed, raise_eq]

/-- Settles O29: the two cases differ in what DECOMPOSE does. -/
theorem startOpensAFrame : Obligations.StartOpensAFrame :=
  ⟨fun _ hc hspeed => exec_dmuxStart_of_le hc hspeed,
    fun s hc hspeed => ⟨_, fun f => mem_raise_faults f (.decompDomain s.speed) s, exec_dmuxStart_of_gt hc hspeed⟩⟩

/-- The trace of DMUX_START between frames, where both framing pins are at rest (R133). -/
theorem dmuxStart_trace_at_rest {s : State} (hdeN : s.deN = true) (hsb : s.sb = false) :
    (dmuxStart s).trace = s.trace ++ [(.deN, false), (.sb, true)] := by
  simp [dmuxStart_eq, hdeN, hsb]

/-- Between frames both framing pins are at rest (10_state.md R39). -/
theorem framing_at_rest {s : State} (h : Inv s) (hrc : s.rc = 0) : s.deN = true ∧ s.sb = false := by
  obtain ⟨-, -, hdeN, hsb⟩ := h
  constructor
  · exact Bool.eq_true_of_not_eq_false fun hlow => by have := (hdeN.1 hlow).1; omega
  · exact Bool.eq_false_of_not_eq_true fun hhigh => by have := hsb.1 hhigh; omega

/-- Settles O30: at `RC = 0` both framing pins are at rest, so that DMUX_START changes both of them, in its own order. -/
theorem dataEnableFallsBeforeTheStartBitRises : Obligations.DataEnableFallsBeforeTheStartBitRises := by
  intro s hinv hclk hrc
  obtain ⟨hdeN, hsb⟩ := framing_at_rest hinv hrc
  refine ⟨_, exec_tick_phase hinv.1 hclk (hrc ▸ phaseOf_start _), ?_, ?_, ?_, ?_⟩
  · rw [State.setRc_trace, phaseAction, dmuxStart_trace_at_rest (by rwa [muxEntry_deN]) (by rwa [muxEntry_sb]),
      muxEntry_trace, List.singleton_append]
  all_goals simp [phaseAction, dmuxStart_eq]

/-! DMUX_SEGMENT (R134 to R136). -/

/-- ADVANCE in numbers (R135): the segment first, then the digit, both wrapping. -/
theorem nextCursor_eq {d d' : BitVec 2} {c c' : BitVec 3}
    (h : if c = 7 then c' = 0 ∧ d'.toNat = (d.toNat + 1) % 3 else c'.toNat = c.toNat + 1 ∧ d' = d) :
    nextCurD d c = d' ∧ nextCurS c = c' := by
  unfold nextCurD nextCurS
  by_cases hc : c = 7
  · obtain ⟨hc', hd'⟩ := (if_pos hc).mp h
    rw [if_pos hc, if_pos hc, ndig, ← hd', BitVec.ofNat_toNat, BitVec.setWidth_eq]
    exact ⟨rfl, hc'.symm⟩
  · obtain ⟨hc', hd'⟩ := (if_neg hc).mp h
    rw [if_neg hc, if_neg hc]
    exact ⟨hd'.symm, by bv_omega⟩

/-- The ROM has entries at the ten digits only (20_memory.md R50). -/
theorem digit_le_of_segTable_eq_some {c : Cfg} (hc : ConfigOk c) {a : Digit} {e : Nat}
    (h : c.segTable[a.toNat]? = some e) : a.toNat ≤ 9 := by
  obtain ⟨-, -, -, hlen, -⟩ := hc
  obtain ⟨hlt, -⟩ := List.getElem?_eq_some_iff.1 h
  omega

theorem romData_eq {c : Cfg} (hc : ConfigOk c) {a : Digit} {e : Nat} (h : c.segTable[a.toNat]? = some e) :
    romData c a = BitVec.ofNat 8 e := by
  have ha := digit_le_of_segTable_eq_some hc h
  rw [romData, memRead, if_pos (by omega), h, Option.map_some, Option.getD_some]

/-- The digit DMUX_SEGMENT reads, by the advanced `CUR_D` (R134). -/
theorem segmentDigit_eq {s : State} (hd : s.curD ≠ 3) :
    segmentDigit s = if nextCurD s.curD s.curS = 0 then s.dig.d0
      else if nextCurD s.curD s.curS = 1 then s.dig.d1 else s.dig.d2 := by
  rw [segmentDigit, digEntry_eq (nextCurD_ne_three hd s.curS), Option.getD_some]

/-- Settles O31: `dmuxSegment_eq`, with the advanced cursor, the digit there and its ROM entry written out. -/
theorem segmentShiftsOneBit : Obligations.SegmentShiftsOneBit := by
  intro s d c a e hc hcur hadvance ha he
  obtain ⟨hd, hs⟩ := nextCursor_eq hadvance
  have hdigit : segmentDigit s = a := by rw [segmentDigit_eq hcur, hd, ha]
  have hbit : segmentBit s = e.testBit c.toNat := by
    rw [segmentBit, hdigit, hs, romData_eq hc he, segBit_ofNat]
  have hle : (segmentDigit s).toNat ≤ 9 := hdigit ▸ digit_le_of_segTable_eq_some hc he
  refine ⟨some (romData s.cfg (segmentDigit s)), ?_⟩
  rw [exec_dmuxSegment, performMicro_ok dmuxSegment hc, dmuxSegment_eq hc hcur hle, hd, hs, hbit]

/-! DMUX_IDLE (R137). -/

theorem phaseOf_idle {R rc : Nat} (hlo : 25 ≤ rc) (hhi : rc + 2 ≤ R) : phaseOf R rc = .idle := by
  rw [phaseOf, spc, if_neg (by omega), if_neg (by omega), if_pos hhi]

/-- Settles O33: an idle tick leaves what its RATE_WINDOW leaves, but for `RC`. -/
theorem idleHoldsPinsAndCursor : Obligations.IdleHoldsPinsAndCursor := by
  refine ⟨fun s hc => by rw [exec_dmuxIdle, performMicro_ok dmuxIdle hc, dmuxIdle], fun s hready hclk hlo hhi => ?_⟩
  have hR := refreshCycle_ge_of_ready hready
  refine ⟨_, exec_tick_phase hready hclk (phaseOf_idle hlo (by omega)), ?_, ?_⟩
  · rw [State.setRc_rc, Nat.mod_eq_of_lt (by omega)]
  · simp [phaseAction, dmuxIdle]

/-! DMUX_END (R138). -/

theorem phaseOf_finish {R rc : Nat} (hR : 26 ≤ R) (hrc : rc = R - 1) : phaseOf R rc = .finish := by
  rw [phaseOf, spc, if_neg (by omega), if_neg (by omega), if_neg (by omega)]

theorem exec_dmuxEnd_eq {s : State} (hc : ConfigOk s.cfg) :
    exec .dmuxEnd s =
      .next { s with deN := true, trace := s.trace ++ (if s.deN = true then [] else [(.deN, true)]) } := by
  rw [exec_dmuxEnd, performMicro_ok dmuxEnd hc, dmuxEnd, drive_deN_eq]

/-- Settles O34: the tick at `RC = R − 1` drives `DE_N` after the fall of `CLK`, and `R` is 0 modulo `R`. -/
theorem endClosesTheFrame : Obligations.EndClosesTheFrame := by
  refine ⟨fun s hc => exec_dmuxEnd_eq hc, fun s hready hclk hrc => ?_⟩
  have hR := refreshCycle_ge_of_ready hready
  refine ⟨_, exec_tick_phase hready hclk (phaseOf_finish hR hrc), ?_, ?_⟩
  · rw [State.setRc_rc, hrc, Nat.sub_add_cancel (by omega), Nat.mod_self]
  · simp [phaseAction, dmuxEnd]

/-! The advance of `RC`, over all operation words (R139). -/

/-- `RC` after an operation: what its body leaves where it is performed, and unchanged where it is refused or faults. -/
theorem performOperation_rc (body : State → State) (s : State) :
    (performOperation body s).rc = if Ready s then (body (enterOperation s)).rc else s.rc := by
  obtain ⟨hbad, h⟩ | ⟨-, hill, h⟩ | ⟨hready, h⟩ := performOperation_cases body s
  · rw [h, if_neg fun hready => hbad hready.1, refuse_rc, enterOperation_rc]
  · rw [h, if_neg fun hready => hill hready.2, raiseAll_rc, enterOperation_rc]
  · rw [h, if_pos hready]

/-- TICK advances `RC` where its toggle lowers `CLK`, and only there. -/
theorem schedulerTick_rc (s : State) :
    (schedulerTick s).rc = if s.clk = true then (s.rc + 1) % s.cfg.R else s.rc := by
  by_cases hclk : s.clk = true
  · rw [if_pos hclk, schedulerTick_run hclk, tickRun, displayMux_eq, State.setRc_rc, rateWindow_rc, rateWindow_cfg]
  · rw [if_neg hclk, schedulerTick_skip (Bool.eq_false_of_not_eq_true hclk)]

/-- Settles O35, by the operation words: TICK is the only one whose body advances `RC`. -/
theorem rcAdvancesInQualifyingTicksOnly : Obligations.RcAdvancesInQualifyingTicksOnly := by
  intro i s t hwf hexec
  cases i with
  | tick =>
    rw [exec_tick] at hexec
    cases hexec
    rw [performOperation_rc, schedulerTick_rc, enterOperation_rc, enterOperation_cfg, enterOperation_clk, ← ite_and]
    exact if_congr ⟨fun ⟨hready, hclk⟩ => ⟨rfl, hclk, hready⟩, fun ⟨_, hclk, hready⟩ => ⟨hready, hclk⟩⟩ rfl rfl
  | nop =>
    rw [exec_nop] at hexec
    cases hexec
    rw [performOperation_rc, idleWait, enterOperation_rc, ite_self, if_neg (by simp)]
  | edge =>
    rw [exec_edge] at hexec
    cases hexec
    rw [performOperation_rc, countEdge_eq, enterOperation_rc, ite_self, if_neg (by simp)]
  | reserved11 =>
    rw [exec_reserved11] at hexec
    cases hexec
    rw [refuse_rc, enterOperation_rc, if_neg (by simp)]
  | _ => cases hwf

end Sys2Proof.Machine
end

section
/-! SUPPORT. The statement of 45_digit_decomposer.md: the digits in the domain, and the fault out of it. -/

namespace Sys2Proof.Machine

theorem exec_decompose (s : State) : exec .decompose s = .next (performMicro decomposeSpeed s) := rfl

/-- The digits of a value of the domain are decimal digits (R150). -/
theorem digitsOf_toNat_le {v : BitVec 10} (h : v.toNat ≤ 999) :
    (digitsOf v).d0.toNat ≤ 9 ∧ (digitsOf v).d1.toNat ≤ 9 ∧ (digitsOf v).d2.toNat ≤ 9 := by
  obtain ⟨h0, h1, h2⟩ := digitsOf_toNat h
  omega

/-- The digits of a value of the domain give it back (R150). -/
theorem digitsOf_reconstruct {v : BitVec 10} (h : v.toNat ≤ 999) :
    (digitsOf v).d0.toNat * 100 + (digitsOf v).d1.toNat * 10 + (digitsOf v).d2.toNat = v.toNat := by
  obtain ⟨h0, h1, h2⟩ := digitsOf_toNat h
  omega

/-- DECOMPOSE of a `SPEED` that three digits show (R150): the digits are its only write. -/
theorem exec_decompose_of_le {s : State} (hc : ConfigOk s.cfg) (hspeed : s.speed.toNat ≤ 999) :
    exec .decompose s = .next { s with dig := digitsOf s.speed } := by
  rw [exec_decompose, performMicro_ok decomposeSpeed hc, decomposeSpeed_eq hspeed]

/-- DECOMPOSE of a `SPEED` out of its domain (R151): the fault is its only write. -/
theorem exec_decompose_of_gt {s : State} (hc : ConfigOk s.cfg) (hspeed : 999 < s.speed.toNat) :
    exec .decompose s = .next { s with faults := (raise (.decompDomain s.speed) s).faults } := by
  rw [exec_decompose, performMicro_ok decomposeSpeed hc, decomposeSpeed_out hspeed, ← raise_eq]

/-- Settles O40: the two cases of the domain check, with the digits of R150 in the first. -/
theorem decomposeWritesTheDecimalDigits : Obligations.DecomposeWritesTheDecimalDigits := by
  refine ⟨fun s hc hspeed => ?_, fun s hc hspeed => ?_⟩
  · obtain ⟨h0, h1, h2⟩ := digitsOf_toNat hspeed
    obtain ⟨hle0, hle1, hle2⟩ := digitsOf_toNat_le hspeed
    exact ⟨digitsOf s.speed, exec_decompose_of_le hc hspeed, h0, h1, h2, hle0, hle1, hle2, digitsOf_reconstruct hspeed⟩
  · exact ⟨_, fun f => mem_raise_faults f (.decompDomain s.speed) s, exec_decompose_of_gt hc hspeed⟩

end Sys2Proof.Machine
end

section
/-! SUPPORT. The statements of 60_exceptions.md: when an operation word is refused, and which fault codes its step can
record. -/

namespace Sys2Proof.Machine

/-! Refusals (R176). -/

/-- A configuration is bad exactly where it breaks one of the constraints R176 lists. -/
theorem not_configOk_iff (c : Cfg) :
    ¬ConfigOk c ↔ c.W < 1 ∨ c.R < 26 ∨ c.TW < 10 ∨ c.segTable.length ≠ 10 ∨ ∃ e ∈ c.segTable, 255 < e := by
  simp only [ConfigOk, Memory.wf, not_and_or, not_le, not_forall, exists_prop, ne_eq]

/-- The two cases of R176: the refusal is the whole effect of the word. -/
theorem exec_of_refused {i : Instr} {s : State} (hword : WellFormed i = true) (h : i = .reserved11 ∨ ¬ConfigOk s.cfg) :
    exec i s = .next (refuse (enterOperation s)) := by
  obtain rfl | hbad := h
  · exact exec_reserved11 s
  · cases i with
    | nop => rw [exec_nop, performOperation_badConfig idleWait hbad]
    | tick => rw [exec_tick, performOperation_badConfig schedulerTick hbad]
    | edge => rw [exec_edge, performOperation_badConfig countEdge hbad]
    | reserved11 => exact exec_reserved11 s
    | _ => cases hword

/-- Settles O14: what the statement lists are the two cases of `exec_of_refused`. -/
theorem badConfigurationRefusesEveryWord : Obligations.BadConfigurationRefusesEveryWord := by
  intro i s hword hcase
  rw [← not_configOk_iff] at hcase
  exact ⟨none, by rw [exec_of_refused hword hcase, refuse_enterOperation]⟩

/-! The codes a step records (R177). Each part of a step that can fault raises one record, and the state-range check, which
can raise several, raises FLT_STATE_RANGE only and stops the step. -/

/-- All faults of `new` that are not among `old` have one code. -/
def OneNewCode (old new : List FaultRecord) : Prop := ∃ k, ∀ f ∈ new, f ∈ old ∨ faultCode f = k

/-- With no new fault, any code will do. -/
theorem oneNewCode_refl (l : List FaultRecord) : OneNewCode l l := ⟨.stateRange, fun _ => .inl⟩

theorem oneNewCode_raise (r : FaultRecord) (s : State) : OneNewCode s.faults (raise r s).faults :=
  ⟨faultCode r, fun f hf => ((mem_raise_faults f r s).1 hf).imp_right (congrArg faultCode)⟩

/-- The records of the state-range check are all FLT_STATE_RANGE (R175). -/
theorem faultCode_of_mem_rangeFaults {f : FaultRecord} {s : State} (h : f ∈ rangeFaults s) : faultCode f = .stateRange := by
  obtain ⟨_, rfl, -⟩ := (mem_rangeFaults f s).1 h
  rfl

theorem oneNewCode_rangeFaults (s u : State) : OneNewCode u.faults (raiseAll (rangeFaults s) u).faults :=
  ⟨.stateRange, fun f hf => ((mem_raiseAll_faults f _ u).1 hf).imp_right faultCode_of_mem_rangeFaults⟩

/-- An operation adds faults of one code where its body does so: the state-range check and the body do not both run. -/
theorem oneNewCode_performOperation {body : State → State} (hbody : ∀ u : State, OneNewCode u.faults (body u).faults)
    (s : State) : OneNewCode s.faults (performOperation body s).faults := by
  obtain ⟨-, h⟩ | ⟨-, -, h⟩ | ⟨-, h⟩ := performOperation_cases body s
  · rw [h, refuse_faults, enterOperation_faults]
    exact oneNewCode_refl _
  · rw [h]
    exact oneNewCode_rangeFaults s (enterOperation s)
  · rw [h]
    exact hbody (enterOperation s)

/-! The faults of each part of a tick. -/

/-- RATE_WINDOW performs RW_DEC only away from `WC = 0`, where it does not fault (43_rate_window.md R123). -/
@[simp] theorem rateWindow_faults (s : State) : (rateWindow s).faults = s.faults := by rw [rateWindow_eq]

theorem oneNewCode_decomposeSpeed (s : State) : OneNewCode s.faults (decomposeSpeed s).faults := by
  by_cases hspeed : s.speed.toNat ≤ 999
  · rw [decomposeSpeed_eq hspeed]
    exact oneNewCode_refl _
  · rw [decomposeSpeed_out (not_le.1 hspeed)]
    exact oneNewCode_raise _ s

theorem oneNewCode_segLut (a : Digit) (s : State) : OneNewCode s.faults (segLut a s).faults := by
  unfold segLut
  split
  · exact oneNewCode_refl _
  · exact oneNewCode_raise _ (s.setRomOut 0)

/-- DMUX_SEGMENT faults on the cursor, or on the index of its ROM read, never on both (44_display_multiplexer.md R134). -/
theorem oneNewCode_dmuxSegment (s : State) : OneNewCode s.faults (dmuxSegment s).faults := by
  obtain ⟨-, h⟩ | ⟨-, h⟩ := dmuxSegment_cases s
  · rw [h]
    exact oneNewCode_raise _ s
  · have hlut := oneNewCode_segLut (segmentDigit s) (advance (drive .sb false s))
    rw [h, shiftOut, drive_faults]
    rwa [advance, State.setCursor_faults, drive_faults] at hlut

theorem oneNewCode_phaseAction (p : Phase) (s : State) : OneNewCode s.faults (phaseAction p s).faults := by
  cases p with
  | start =>
    rw [phaseAction, dmuxStart_eq]
    exact oneNewCode_decomposeSpeed s
  | segment => exact oneNewCode_dmuxSegment s
  | idle => exact oneNewCode_refl _
  | finish =>
    rw [phaseAction, dmuxEnd, drive_faults]
    exact oneNewCode_refl _

theorem oneNewCode_tickRun (s : State) : OneNewCode s.faults (tickRun s).faults := by
  have hphase := oneNewCode_phaseAction (phaseOf (rateWindow s).cfg.R (rateWindow s).rc) (rateWindow s)
  rwa [tickRun, displayMux_eq, State.setRc_faults, ← rateWindow_faults s]

theorem oneNewCode_schedulerTick (s : State) : OneNewCode s.faults (schedulerTick s).faults := by
  by_cases hclk : s.clk = true
  · rw [schedulerTick_run hclk]
    exact oneNewCode_tickRun _
  · rw [schedulerTick_skip (Bool.eq_false_of_not_eq_true hclk)]
    exact oneNewCode_refl _

theorem oneNewCode_countEdge (s : State) : OneNewCode s.faults (countEdge s).faults := by
  rw [countEdge_eq]
  exact oneNewCode_refl _

/-- Whatever the state was, the faults an operation word adds have one code. -/
theorem oneNewCode_exec {i : Instr} {s t : State} (hword : WellFormed i = true) (h : exec i s = .next t) :
    OneNewCode s.faults t.faults := by
  cases i with
  | nop =>
    rw [exec_nop] at h
    cases h
    exact oneNewCode_performOperation (fun u => oneNewCode_refl u.faults) s
  | tick =>
    rw [exec_tick] at h
    cases h
    exact oneNewCode_performOperation oneNewCode_schedulerTick s
  | edge =>
    rw [exec_edge] at h
    cases h
    exact oneNewCode_performOperation oneNewCode_countEdge s
  | reserved11 =>
    rw [exec_reserved11] at h
    cases h
    exact oneNewCode_refl _
  | _ => cases hword

/-- Settles O46: a refused step is `refuse` alone, which records no fault. -/
theorem oneFaultCodeAStepAndNoneWhenRefused : Obligations.OneFaultCodeAStepAndNoneWhenRefused := by
  intro i s t hword hexec
  refine ⟨oneNewCode_exec hword hexec, fun hcase => ?_⟩
  rw [exec_of_refused hword hcase] at hexec
  cases hexec
  rw [refuse_faults, enterOperation_faults]

end Sys2Proof.Machine
end

section
/-! SUPPORT. The statement of 70_reset_and_hazards.md: the values of the reset state, element by element. -/

namespace Sys2Proof.Machine

/-! The fields of `State.resetOf`, in the order of the reset table (R200). -/

@[simp] theorem State.resetOf_tally (c : Cfg) : (State.resetOf c).tally = 0 := rfl
@[simp] theorem State.resetOf_wc (c : Cfg) : (State.resetOf c).wc = c.W - 1 := rfl
@[simp] theorem State.resetOf_speed (c : Cfg) : (State.resetOf c).speed = 0 := rfl
@[simp] theorem State.resetOf_dig (c : Cfg) : (State.resetOf c).dig = ⟨0, 0, 0⟩ := rfl
@[simp] theorem State.resetOf_rc (c : Cfg) : (State.resetOf c).rc = 0 := rfl
@[simp] theorem State.resetOf_curD (c : Cfg) : (State.resetOf c).curD = 2 := rfl
@[simp] theorem State.resetOf_curS (c : Cfg) : (State.resetOf c).curS = 7 := rfl
@[simp] theorem State.resetOf_clk (c : Cfg) : (State.resetOf c).clk = false := rfl
@[simp] theorem State.resetOf_stat (c : Cfg) : (State.resetOf c).stat = false := rfl
@[simp] theorem State.resetOf_deN (c : Cfg) : (State.resetOf c).deN = true := rfl
@[simp] theorem State.resetOf_sb (c : Cfg) : (State.resetOf c).sb = false := rfl
@[simp] theorem State.resetOf_sdo (c : Cfg) : (State.resetOf c).sdo = false := rfl
@[simp] theorem State.resetOf_faults (c : Cfg) : (State.resetOf c).faults = [] := rfl
@[simp] theorem State.resetOf_refused (c : Cfg) : (State.resetOf c).refused = false := rfl
@[simp] theorem State.resetOf_cfg (c : Cfg) : (State.resetOf c).cfg = c := rfl

/-- The machine's own reset state is that of its own configuration, whichever that is. -/
theorem State.reset_eq_resetOf_cfg : State.reset = State.resetOf State.reset.cfg := by
  rw [State.reset, State.resetOf_cfg]

/-- Settles O9: the reset table field by field, and the machine's own reset as an instance of it. -/
theorem resetStateHoldsTheStatedValues : Obligations.ResetStateHoldsTheStatedValues := by
  refine ⟨fun c => ?_, State.reset_eq_resetOf_cfg⟩
  simp only [State.resetOf_tally, State.resetOf_wc, State.resetOf_speed, State.resetOf_dig, State.resetOf_rc,
    State.resetOf_curD, State.resetOf_curS, State.resetOf_clk, State.resetOf_stat, State.resetOf_deN, State.resetOf_sb,
    State.resetOf_sdo, State.resetOf_faults, State.resetOf_refused, State.resetOf_cfg, and_self]

end Sys2Proof.Machine
end

section
/-! SUPPORT. Packed programs (30_encoding.md R81): packing and unpacking words, and the operations of the unpacked words. -/

namespace Sys2Proof.Machine

/-- The four words of a byte are those it was packed from (R81): each stands two bits above the one before it. -/
theorem wordsOfByte_byteOfWords (w0 w1 w2 w3 : OpWord) : wordsOfByte (byteOfWords w0 w1 w2 w3) = [w0, w1, w2, w3] := by
  have h0 : (byteOfWords w0 w1 w2 w3).extractLsb' 0 2 = w0 := BitVec.extractLsb'_append_eq_right
  have h1 : (byteOfWords w0 w1 w2 w3).extractLsb' 2 2 = w1 := by
    rw [byteOfWords, BitVec.extractLsb'_append_eq_of_le (by omega)]
    exact BitVec.extractLsb'_append_eq_right
  have h2 : (byteOfWords w0 w1 w2 w3).extractLsb' 4 2 = w2 := by
    rw [byteOfWords, BitVec.extractLsb'_append_eq_of_le (by omega), BitVec.extractLsb'_append_eq_of_le (by omega)]
    exact BitVec.extractLsb'_append_eq_right
  have h3 : (byteOfWords w0 w1 w2 w3).extractLsb' 6 2 = w3 := by
    rw [byteOfWords, BitVec.extractLsb'_append_eq_of_le (by omega), BitVec.extractLsb'_append_eq_of_le (by omega)]
    exact BitVec.extractLsb'_append_eq_left
  rw [wordsOfByte, h0, h1, h2, h3]

/-- The NOP words that pad the last byte of `n` words. -/
def padding (n : Nat) : List OpWord := List.replicate ((4 - n % 4) % 4) 0

/-- Four words fill a byte: they change nothing of the padding. -/
theorem padding_add_four (n : Nat) : padding (n + 4) = padding n := by
  rw [padding, padding, Nat.add_mod_right]

theorem unpackBytes_packBytes (ws : List OpWord) : unpackBytes (packBytes ws) = ws ++ padding ws.length := by
  induction ws using packBytes.induct with
  | case1 => rfl
  | case2 w0 => simp [packBytes, unpackBytes, wordsOfByte_byteOfWords, padding]
  | case3 w0 w1 => simp [packBytes, unpackBytes, wordsOfByte_byteOfWords, padding]
  | case4 w0 w1 w2 => simp [packBytes, unpackBytes, wordsOfByte_byteOfWords, padding]
  | case5 w0 w1 w2 w3 ws ih =>
    rw [packBytes, unpackBytes, wordsOfByte_byteOfWords, ih]
    exact congrArg (w0 :: w1 :: w2 :: w3 :: ws ++ ·) (padding_add_four ws.length).symm

theorem packBytes_length (ws : List OpWord) : (packBytes ws).length = (ws.length + 3) / 4 := by
  induction ws using packBytes.induct with
  | case1 => rfl
  | case2 w0 => simp [packBytes]
  | case3 w0 w1 => simp [packBytes]
  | case4 w0 w1 w2 => simp [packBytes]
  | case5 w0 w1 w2 w3 ws ih =>
    simp only [packBytes, List.length_cons, ih]
    omega

theorem decodeAll_append (us vs : List OpWord) : decodeAll (us ++ vs) = decodeAll us ++ decodeAll vs := List.map_append

/-- The words of operations that have one spell those operations (R70). -/
theorem decodeAll_encodeAll {is : List Instr} (h : ∀ i ∈ is, WellFormed i = true) : decodeAll (encodeAll is) = is := by
  induction is with
  | nil => rfl
  | cons i is ih =>
    obtain ⟨w, hencode, hdecode⟩ := (encodeRow_statement i).1 (h i List.mem_cons_self)
    rw [encodeAll, decodeAll_append, hencode, ih fun j hj => h j (List.mem_cons_of_mem i hj)]
    exact congrArg (· :: is) ((hdecode w).2 rfl)

theorem encodeAll_length {is : List Instr} (h : ∀ i ∈ is, WellFormed i = true) : (encodeAll is).length = is.length := by
  induction is with
  | nil => rfl
  | cons i is ih =>
    obtain ⟨w, hencode, -⟩ := (encodeRow_statement i).1 (h i List.mem_cons_self)
    rw [encodeAll, hencode, List.singleton_append, List.length_cons, ih fun j hj => h j (List.mem_cons_of_mem i hj),
      List.length_cons]

/-- The padding words are NOPs. -/
theorem decodeAll_padding (n : Nat) : decodeAll (padding n) = List.replicate ((4 - n % 4) % 4) .nop :=
  List.map_replicate

/-- Settles O3: unpacking gives the words back with their padding, and the words spell the operations. -/
theorem packedProgramDecodesToItself : Obligations.PackedProgramDecodesToItself := by
  intro is hword
  rw [unpackBytes_packBytes, decodeAll_append, decodeAll_padding, decodeAll_encodeAll hword, packBytes_length,
    encodeAll_length hword]
  exact ⟨rfl, rfl⟩

/-- Settles O1: the table of R70 by evaluation, row by row. -/
theorem eventWordsSpellTheirOperations : Obligations.EventWordsSpellTheirOperations :=
  ⟨rfl, rfl, rfl, rfl, by decide, by decide⟩

end Sys2Proof.Machine
end

section
/-! SUPPORT. What an operation and a step can do, said once for all operations: the three ways an operation can go, and the
two kinds of step. The statements of 20_memory.md R61, 30_encoding.md R75 and 70_reset_and_hazards.md R201 follow. -/

namespace Sys2Proof.Machine

/-! Operations. -/

/-- The effect of an operation that is neither refused nor stopped by the state-range check; the reserved word has none but
its refusal. -/
def bodyOf : Instr → State → State
  | .nop => idleWait
  | .tick => schedulerTick
  | .edge => countEdge
  | .reserved11 => refuse
  | .tickSkip => tickSkip
  | .tickRun => tickRun
  | .rwRoll => rwRoll
  | .rwDec => rwDec
  | .dmuxStart => dmuxStart
  | .dmuxSegment => dmuxSegment
  | .dmuxIdle => dmuxIdle
  | .dmuxEnd => dmuxEnd
  | .decompose => decomposeSpeed
  | .seglut => segLutAtCursor

/-- The state an operation begins with: an operation word empties the outputs of the step, a micro-operation does not
(notes/assumptions/13.md). -/
def entryOf (i : Instr) (s : State) : State := if WellFormed i = true then enterOperation s else s

theorem entryOf_word {i : Instr} (h : WellFormed i = true) (s : State) : entryOf i s = enterOperation s := if_pos h

theorem entryOf_internal {i : Instr} (h : WellFormed i = false) (s : State) : entryOf i s = s :=
  if_neg (Bool.eq_false_iff.1 h)

/-- Entry writes the outputs of the step only. -/
theorem entryOf_frame (i : Instr) (s : State) :
    entryOf i s = { s with trace := (entryOf i s).trace, romOut := (entryOf i s).romOut } := by
  unfold entryOf; split <;> rfl

theorem exec_word {i : Instr} (h : WellFormed i = true) (s : State) :
    exec i s = .next (if i = .reserved11 then refuse (enterOperation s) else performOperation (bodyOf i) s) := by
  cases i with
  | nop => exact exec_nop s
  | tick => exact exec_tick s
  | edge => exact exec_edge s
  | reserved11 => exact exec_reserved11 s
  | _ => cases h

theorem exec_internal {i : Instr} (h : WellFormed i = false) (s : State) :
    exec i s = .next (performMicro (bodyOf i) s) := by
  cases i with
  | nop | tick | edge | reserved11 => cases h
  | _ => rfl

/-- Every way an operation can go (60_exceptions.md R175 to R177): refused, stopped by the state-range check, or
performed. -/
theorem exec_cases {i : Instr} {s t : State} (h : exec i s = .next t) :
    t = refuse (entryOf i s) ∨ t = raiseAll (rangeFaults s) (entryOf i s) ∨
    (ConfigOk s.cfg ∧ i ≠ .reserved11 ∧ t = bodyOf i (entryOf i s)) := by
  cases hword : WellFormed i with
  | false =>
    rw [exec_internal hword] at h
    cases h
    rw [entryOf_internal hword]
    by_cases hc : ConfigOk s.cfg
    · exact .inr (.inr ⟨hc, fun hres => absurd (hres ▸ hword) (by decide), performMicro_ok _ hc⟩)
    · exact .inl (performMicro_badConfig _ hc)
  | true =>
    rw [exec_word hword] at h
    cases h
    rw [entryOf_word hword]
    by_cases hres : i = .reserved11
    · exact .inl (if_pos hres)
    · rw [if_neg hres]
      obtain ⟨-, hrefused⟩ | ⟨-, -, hstopped⟩ | ⟨hready, hperformed⟩ := performOperation_cases (bodyOf i) s
      · exact .inl hrefused
      · exact .inr (.inl hstopped)
      · exact .inr (.inr ⟨hready.1, hres, hperformed⟩)

theorem exec_completes (i : Instr) (s : State) : ∃ t, exec i s = .next t := by
  cases hword : WellFormed i with
  | true => exact ⟨_, exec_word hword s⟩
  | false => exact ⟨_, exec_internal hword s⟩

/-! Steps. -/

/-- The two kinds of step (00_scope.md R8): an operation word, or reset. -/
theorem step_cases (s : State) :
    (∃ w rest, nextMove s.env = (.op w, rest) ∧ step s = exec (decodeWord w) { s with env := rest }) ∨
    ∃ rest, step s = .next (restart { s with env := rest }) := by
  rw [step]
  split
  · exact .inl ⟨_, _, ‹_›, rfl⟩
  · exact .inr ⟨_, rfl⟩

theorem step_of_op {s : State} {w : OpWord} {rest : List EnvMove} (h : s.env = .op w :: rest) :
    step s = exec (decodeWord w) { s with env := rest } := by rw [step, h]; rfl

theorem step_of_reset {s : State} {rest : List EnvMove} (h : s.env = .reset :: rest) :
    step s = .next (restart { s with env := rest }) := by rw [step, h]; rfl

/-- Settles O5. -/
theorem stepPerformsThePresentedOperation : Obligations.StepPerformsThePresentedOperation :=
  fun _ w _ henv => ⟨wellFormed_decodeWord w, step_of_op henv⟩

/-- Settles O7: with nothing presented the next move is the word of NOP, and no move is left. -/
theorem stepWithNothingPresentedIsNop : Obligations.StepWithNothingPresentedIsNop := by
  intro s henv
  have hsame : { s with env := [] } = s := by rw [← henv]
  rw [step, henv]
  exact congrArg (exec .nop) hsame

/-- Settles O8: `restart` keeps the moves of the state it is given, which are the rest. -/
theorem resetMoveStartsANewRun : Obligations.ResetMoveStartsANewRun :=
  fun _ _ henv => ⟨step_of_reset henv, rfl⟩

/-- Settles O10: a step is an operation or a restart, and both answer a next state. -/
theorem everyStepCompletes : Obligations.EveryStepCompletes := by
  refine ⟨exec_completes, fun s => ?_⟩
  obtain ⟨w, rest, -, hstep⟩ | ⟨rest, hstep⟩ := step_cases s
  · rw [hstep]; exact exec_completes _ _
  · exact ⟨_, hstep⟩

/-! Table rows of eight bits (30_encoding.md R81; notes/assumptions/24.md): one packed byte, whose word 0 is the row's. -/

theorem presentTableWord_eight {w : Nat} (hw : w < 4) (env : List EnvMove) :
    presentTableWord 8 w env = .op (BitVec.ofNat 2 w) :: env := by
  interval_cases w <;> rfl

theorem decodeTableWord_eight {w : Nat} (hw : w < 4) : decodeTableWord 8 w = some (decodeWord (BitVec.ofNat 2 w)) := by
  interval_cases w <;> rfl

/-- Settles O6: the placed word is the next move, and taking it off leaves the moves as they were. -/
theorem presentedTableWordIsPerformedNext : Obligations.PresentedTableWordIsPerformedNext :=
  fun s _ hw => ⟨decodeTableWord_eight hw, step_of_op (s := s.withFetchWord 8 _) (presentTableWord_eight hw s.env)⟩

/-! TICK_SKIP and TICK_RUN. -/

theorem exec_tickRun {s : State} (hc : ConfigOk s.cfg) : exec .tickRun s = .next (tickRun s) :=
  (exec_internal rfl s).trans (congrArg _ (performMicro_ok tickRun hc))

theorem exec_tickSkip {s : State} (hc : ConfigOk s.cfg) : exec .tickSkip s = .next s :=
  (exec_internal rfl s).trans (congrArg _ (performMicro_ok tickSkip hc))

/-- Settles O15: TICK_RUN is the two rows its selects choose, then the advance of `RC`. -/
theorem clockSelectsSkipOrRun : Obligations.ClockSelectsSkipOrRun := by
  refine ⟨rfl, rfl, fun s => exec_tickSkip, fun s hc => ?_⟩
  obtain ⟨s1, s2, hwindow, hphase, hrun, -, -⟩ := tickRun_by_selects hc
  exact ⟨s1, s2, hwindow, hphase, hrun ▸ exec_tickRun hc⟩

end Sys2Proof.Machine
end

section
/-! SUPPORT. The qualifying tick, element by element: what the phases write, and the four ways a qualifying tick from a state
in range can go (42_tick_scheduler.md R113, 44_display_multiplexer.md R130). -/

namespace Sys2Proof.Machine

/-! What DMUX_START and DMUX_SEGMENT write. -/

theorem decomposeSpeed_dig (s : State) :
    (decomposeSpeed s).dig = if s.speed.toNat ≤ 999 then digitsOf s.speed else s.dig := by
  by_cases hspeed : s.speed.toNat ≤ 999
  · rw [decomposeSpeed_eq hspeed, if_pos hspeed]
  · rw [decomposeSpeed_out (not_le.1 hspeed), raise_dig, if_neg hspeed]

@[simp] theorem dmuxStart_dig (s : State) :
    (dmuxStart s).dig = if s.speed.toNat ≤ 999 then digitsOf s.speed else s.dig := by
  rw [dmuxStart_eq, ← decomposeSpeed_dig]

@[simp] theorem dmuxStart_curD (s : State) : (dmuxStart s).curD = 2 := by rw [dmuxStart_eq]
@[simp] theorem dmuxStart_curS (s : State) : (dmuxStart s).curS = 7 := by rw [dmuxStart_eq]
@[simp] theorem dmuxStart_deN (s : State) : (dmuxStart s).deN = false := by rw [dmuxStart_eq]
@[simp] theorem dmuxStart_sb (s : State) : (dmuxStart s).sb = true := by rw [dmuxStart_eq]
@[simp] theorem dmuxStart_sdo (s : State) : (dmuxStart s).sdo = s.sdo := by rw [dmuxStart_eq, decomposeSpeed_frame]

/-- DMUX_START writes no element but those R131 names. -/
theorem dmuxStart_frame (s : State) :
    dmuxStart s = { s with
      dig := (dmuxStart s).dig
      curD := (dmuxStart s).curD
      curS := (dmuxStart s).curS
      deN := (dmuxStart s).deN
      sb := (dmuxStart s).sb
      faults := (dmuxStart s).faults
      trace := (dmuxStart s).trace } := by
  rw [dmuxStart_eq, decomposeSpeed_frame]

theorem segLut_frame (a : Digit) (s : State) :
    segLut a s = { s with faults := (segLut a s).faults, romOut := (segLut a s).romOut } := by
  unfold segLut
  split
  · rfl
  · rw [raise_eq]; rfl

/-- DMUX_SEGMENT writes no element but those R134 names. -/
theorem dmuxSegment_frame (s : State) :
    dmuxSegment s = { s with
      curD := (dmuxSegment s).curD
      curS := (dmuxSegment s).curS
      sb := (dmuxSegment s).sb
      sdo := (dmuxSegment s).sdo
      faults := (dmuxSegment s).faults
      trace := (dmuxSegment s).trace
      romOut := (dmuxSegment s).romOut } := by
  obtain ⟨-, h⟩ | ⟨-, h⟩ := dmuxSegment_cases s
  · rw [h, raise_eq]
  · rw [h, shiftOut, drive_sdo_eq, segLut_frame, advance, drive_sb_eq]; rfl

@[simp] theorem dmuxSegment_dig (s : State) : (dmuxSegment s).dig = s.dig := by rw [dmuxSegment_frame]
@[simp] theorem dmuxSegment_deN (s : State) : (dmuxSegment s).deN = s.deN := by rw [dmuxSegment_frame]

/-- No phase writes the registers of the Rate Window, `RC`, `CLK`, `STAT` or `REFUSED`. -/
theorem phaseAction_frame (p : Phase) (s : State) :
    phaseAction p s = { s with
      dig := (phaseAction p s).dig
      curD := (phaseAction p s).curD
      curS := (phaseAction p s).curS
      deN := (phaseAction p s).deN
      sb := (phaseAction p s).sb
      sdo := (phaseAction p s).sdo
      faults := (phaseAction p s).faults
      trace := (phaseAction p s).trace
      romOut := (phaseAction p s).romOut } := by
  cases p with
  | start => rw [phaseAction, dmuxStart_frame]
  | segment => rw [phaseAction, dmuxSegment_frame]
  | idle => rfl
  | finish => rw [phaseAction, dmuxEnd, drive_deN_eq]

@[simp] theorem phaseAction_tally (p : Phase) (s : State) : (phaseAction p s).tally = s.tally := by rw [phaseAction_frame]
@[simp] theorem phaseAction_wc (p : Phase) (s : State) : (phaseAction p s).wc = s.wc := by rw [phaseAction_frame]
@[simp] theorem phaseAction_speed (p : Phase) (s : State) : (phaseAction p s).speed = s.speed := by rw [phaseAction_frame]
@[simp] theorem phaseAction_stat (p : Phase) (s : State) : (phaseAction p s).stat = s.stat := by rw [phaseAction_frame]
@[simp] theorem phaseAction_refused (p : Phase) (s : State) : (phaseAction p s).refused = s.refused := by
  rw [phaseAction_frame]

/-- DMUX_SEGMENT from a legal cursor, whatever the digits (R134 to R136). -/
theorem dmuxSegment_writes {s : State} (hd : s.curD ≠ 3) :
    (dmuxSegment s).curD = nextCurD s.curD s.curS ∧ (dmuxSegment s).curS = nextCurS s.curS ∧
    (dmuxSegment s).sb = false ∧ (dmuxSegment s).sdo = segmentBit s := by
  obtain ⟨h3, -⟩ | ⟨-, h⟩ := dmuxSegment_cases s
  · exact absurd h3 hd
  · rw [h, shiftOut, drive_sdo_eq, segLut_frame, advance, drive_sb_eq]
    exact ⟨rfl, rfl, rfl, rfl⟩

/-! What RATE_WINDOW writes (43_rate_window.md R120), and TICK_RUN as the phase at its `RC` on what RATE_WINDOW left. -/

theorem rateWindow_wc (s : State) : (rateWindow s).wc = if s.wc = 0 then s.cfg.W - 1 else s.wc - 1 := by rw [rateWindow_eq]
theorem rateWindow_tally (s : State) : (rateWindow s).tally = if s.wc = 0 then 0 else s.tally := by rw [rateWindow_eq]
theorem rateWindow_speed (s : State) : (rateWindow s).speed = if s.wc = 0 then clampSpeed s.tally else s.speed := by
  rw [rateWindow_eq]

@[simp] theorem rateWindow_refused (s : State) : (rateWindow s).refused = s.refused := by rw [rateWindow_eq]

theorem tickRun_eq (s : State) :
    tickRun s = (phaseAction (phaseOf s.cfg.R s.rc) (rateWindow s)).setRc ((s.rc + 1) % s.cfg.R) := by
  rw [tickRun, displayMux_eq, rateWindow_cfg, rateWindow_rc]

@[simp] theorem tickRun_cfg (s : State) : (tickRun s).cfg = s.cfg := by
  rw [tickRun_eq, State.setRc_cfg, phaseAction_cfg, rateWindow_cfg]
@[simp] theorem tickRun_rc (s : State) : (tickRun s).rc = (s.rc + 1) % s.cfg.R := by rw [tickRun_eq, State.setRc_rc]
@[simp] theorem tickRun_clk (s : State) : (tickRun s).clk = s.clk := by
  rw [tickRun_eq, State.setRc_clk, phaseAction_clk, rateWindow_clk]
@[simp] theorem tickRun_stat (s : State) : (tickRun s).stat = s.stat := by
  rw [tickRun_eq, State.setRc_stat, phaseAction_stat, rateWindow_stat]
@[simp] theorem tickRun_refused (s : State) : (tickRun s).refused = s.refused := by
  rw [tickRun_eq, State.setRc_refused, phaseAction_refused, rateWindow_refused]

theorem tickRun_wc (s : State) : (tickRun s).wc = if s.wc = 0 then s.cfg.W - 1 else s.wc - 1 := by
  rw [tickRun_eq, State.setRc_wc, phaseAction_wc, rateWindow_wc]
theorem tickRun_tally (s : State) : (tickRun s).tally = if s.wc = 0 then 0 else s.tally := by
  rw [tickRun_eq, State.setRc_tally, phaseAction_tally, rateWindow_tally]
theorem tickRun_speed (s : State) : (tickRun s).speed = if s.wc = 0 then clampSpeed s.tally else s.speed := by
  rw [tickRun_eq, State.setRc_speed, phaseAction_speed, rateWindow_speed]

/-! The qualifying tick. -/

/-- What a qualifying tick leaves (42_tick_scheduler.md R110): the toggle, then TICK_RUN. -/
def qtick (s : State) : State := tickRun (toggledLow s)

theorem qtick_eq (s : State) :
    qtick s = (phaseAction (phaseOf s.cfg.R s.rc) (muxEntry s)).setRc ((s.rc + 1) % s.cfg.R) := tickRun_eq (toggledLow s)

@[simp] theorem qtick_cfg (s : State) : (qtick s).cfg = s.cfg := tickRun_cfg (toggledLow s)
@[simp] theorem qtick_rc (s : State) : (qtick s).rc = (s.rc + 1) % s.cfg.R := tickRun_rc (toggledLow s)
@[simp] theorem qtick_clk (s : State) : (qtick s).clk = false := tickRun_clk (toggledLow s)
@[simp] theorem qtick_stat (s : State) : (qtick s).stat = s.stat := tickRun_stat (toggledLow s)
@[simp] theorem qtick_refused (s : State) : (qtick s).refused = s.refused := tickRun_refused (toggledLow s)

theorem qtick_wc (s : State) : (qtick s).wc = if s.wc = 0 then s.cfg.W - 1 else s.wc - 1 := tickRun_wc (toggledLow s)
theorem qtick_tally (s : State) : (qtick s).tally = if s.wc = 0 then 0 else s.tally := tickRun_tally (toggledLow s)
theorem qtick_speed (s : State) : (qtick s).speed = if s.wc = 0 then clampSpeed s.tally else s.speed :=
  tickRun_speed (toggledLow s)
theorem muxEntry_speed (s : State) : (muxEntry s).speed = if s.wc = 0 then clampSpeed s.tally else s.speed :=
  rateWindow_speed (toggledLow s)

theorem exec_tick_qualifying {s : State} (h : Ready s) (hclk : s.clk = true) : exec .tick s = .next (qtick s) :=
  exec_tick_run h hclk

/-- A state in range is in range at the entry of DISPLAY_MUX. -/
theorem muxEntry_ready {s : State} (h : Ready s) : Ready (muxEntry s) := rateWindow_ready (s := toggledLow s) h

theorem qtick_rc_of_lt {s : State} (h : s.rc + 1 < s.cfg.R) : (qtick s).rc = s.rc + 1 := by
  rw [qtick_rc, Nat.mod_eq_of_lt h]

theorem qtick_rc_of_last {s : State} (h : s.rc + 1 = s.cfg.R) : (qtick s).rc = 0 := by rw [qtick_rc, h, Nat.mod_self]

/-- The display after a START tick (44_display_multiplexer.md R131). -/
theorem qtick_start {s : State} (h : s.rc = 0) :
    (qtick s).dig = (if (qtick s).speed.toNat ≤ 999 then digitsOf (qtick s).speed else s.dig) ∧
    (qtick s).curD = 2 ∧ (qtick s).curS = 7 ∧ (qtick s).deN = false ∧ (qtick s).sb = true ∧ (qtick s).sdo = s.sdo := by
  have hq : qtick s = (dmuxStart (muxEntry s)).setRc ((s.rc + 1) % s.cfg.R) := by rw [qtick_eq, h, phaseOf_start]; rfl
  refine ⟨?_, ?_⟩
  · rw [qtick_speed, ← muxEntry_speed, hq, State.setRc_dig, dmuxStart_dig, muxEntry_dig]
  · simp [hq]

theorem phaseOf_segment {R rc : Nat} (hlo : 1 ≤ rc) (hhi : rc ≤ 24) : phaseOf R rc = .segment := by
  rw [phaseOf, spc, if_neg (by omega), if_pos (by omega)]

/-- The display after a SEGMENT tick (44_display_multiplexer.md R134 to R136). -/
theorem qtick_segment {s : State} (hlo : 1 ≤ s.rc) (hhi : s.rc ≤ 24) (hcur : s.curD ≠ 3) :
    (qtick s).dig = s.dig ∧ (qtick s).curD = nextCurD s.curD s.curS ∧ (qtick s).curS = nextCurS s.curS ∧
    (qtick s).deN = s.deN ∧ (qtick s).sb = false ∧ (qtick s).sdo = segmentBit s := by
  have hq : qtick s = (dmuxSegment (muxEntry s)).setRc ((s.rc + 1) % s.cfg.R) := by
    rw [qtick_eq, phaseOf_segment hlo hhi]; rfl
  obtain ⟨hd, hs, hsb, hsdo⟩ := dmuxSegment_writes (s := muxEntry s) (by rwa [muxEntry_curD])
  have hbit : segmentBit (muxEntry s) = segmentBit s := by simp [segmentBit, segmentDigit]
  simp only [hq, State.setRc_dig, State.setRc_curD, State.setRc_curS, State.setRc_deN, State.setRc_sb, State.setRc_sdo,
    dmuxSegment_dig, dmuxSegment_deN, hd, hs, hsb, hsdo, hbit, muxEntry_dig, muxEntry_curD, muxEntry_curS, muxEntry_deN,
    and_self]

/-- The display after an IDLE or END tick (44_display_multiplexer.md R137, R138): END raises `DE_N`, all else holds. -/
theorem qtick_hold {s : State} (hR : 26 ≤ s.cfg.R) (hlo : 25 ≤ s.rc) (hhi : s.rc < s.cfg.R) :
    (qtick s).dig = s.dig ∧ (qtick s).curD = s.curD ∧ (qtick s).curS = s.curS ∧
    (qtick s).deN = (if s.rc + 1 = s.cfg.R then true else s.deN) ∧ (qtick s).sb = s.sb ∧ (qtick s).sdo = s.sdo := by
  by_cases hlast : s.rc + 1 = s.cfg.R
  · have hq : qtick s = (dmuxEnd (muxEntry s)).setRc ((s.rc + 1) % s.cfg.R) := by
      rw [qtick_eq, phaseOf_finish hR (by omega)]; rfl
    simp [hq, dmuxEnd, hlast]
  · have hq : qtick s = (muxEntry s).setRc ((s.rc + 1) % s.cfg.R) := by
      rw [qtick_eq, phaseOf_idle hlo (by omega)]; rfl
    simp [hq, hlast]

/-- What EDGE leaves (41_edge_counter.md R101). -/
def edgeCounted (s : State) : State :=
  { s with tally := satInc s.cfg.TW s.tally, stat := !s.stat, trace := [(.stat, !s.stat)], romOut := none }

@[simp] theorem edgeCounted_cfg (s : State) : (edgeCounted s).cfg = s.cfg := rfl
@[simp] theorem edgeCounted_tally (s : State) : (edgeCounted s).tally = satInc s.cfg.TW s.tally := rfl
@[simp] theorem edgeCounted_wc (s : State) : (edgeCounted s).wc = s.wc := rfl
@[simp] theorem edgeCounted_speed (s : State) : (edgeCounted s).speed = s.speed := rfl
@[simp] theorem edgeCounted_dig (s : State) : (edgeCounted s).dig = s.dig := rfl
@[simp] theorem edgeCounted_deN (s : State) : (edgeCounted s).deN = s.deN := rfl
@[simp] theorem edgeCounted_sb (s : State) : (edgeCounted s).sb = s.sb := rfl
@[simp] theorem edgeCounted_sdo (s : State) : (edgeCounted s).sdo = s.sdo := rfl
@[simp] theorem edgeCounted_trace (s : State) : (edgeCounted s).trace = [(.stat, !s.stat)] := rfl

theorem exec_edge_counted {s : State} (h : Ready s) : exec .edge s = .next (edgeCounted s) := exec_edge_of_ready h

/-- The four words from a state in range (30_encoding.md R70). -/
theorem exec_ready_cases {i : Instr} {s t : State} (hword : WellFormed i = true) (h : Ready s) (hexec : exec i s = .next t) :
    (i = .nop ∧ t = enterOperation s) ∨
    (i = .edge ∧ t = edgeCounted s) ∨
    (i = .tick ∧ s.clk = false ∧ t = { s with clk := true, trace := [(.clk, true)], romOut := none }) ∨
    (i = .tick ∧ s.clk = true ∧ t = qtick s) ∨
    (i = .reserved11 ∧ t = refuse (enterOperation s)) := by
  cases i with
  | nop =>
    rw [exec_nop_of_ready h] at hexec
    cases hexec
    exact .inl ⟨rfl, rfl⟩
  | edge =>
    rw [exec_edge_counted h] at hexec
    cases hexec
    exact .inr (.inl ⟨rfl, rfl⟩)
  | tick =>
    by_cases hclk : s.clk = true
    · rw [exec_tick_qualifying h hclk] at hexec
      cases hexec
      exact .inr (.inr (.inr (.inl ⟨rfl, hclk, rfl⟩)))
    · have hlow := Bool.eq_false_of_not_eq_true hclk
      rw [exec_tick_skip h hlow] at hexec
      cases hexec
      exact .inr (.inr (.inl ⟨rfl, hlow, rfl⟩))
  | reserved11 =>
    rw [exec_reserved11] at hexec
    cases hexec
    exact .inr (.inr (.inr (.inr ⟨rfl, rfl⟩)))
  | _ => cases hword

end Sys2Proof.Machine
end

section
/-! SUPPORT. The invariants (10_state.md R39, 44_display_multiplexer.md R140, R141): they hold after reset, and every step
keeps them. -/

namespace Sys2Proof.Machine

/-! Reset. -/

theorem resetOf_inv {c : Cfg} (hc : ConfigOk c) : Inv (State.resetOf c) := by
  have ⟨hW, hR, _⟩ := hc
  refine ⟨⟨hc, ?_, ?_, by simp⟩, by simp, by simp, by simp⟩
  · rw [State.resetOf_wc, State.resetOf_cfg]; omega
  · rw [State.resetOf_rc, State.resetOf_cfg]; omega

theorem resetOf_frameInv (c : Cfg) : FrameInv (State.resetOf c) :=
  ⟨fun _ => ⟨rfl, rfl⟩, by simp, by simp⟩

/-- Settles O51: the configuration of the machine's own reset is a good one. -/
theorem resetMeetsTheInvariants : Obligations.ResetMeetsTheInvariants :=
  ⟨fun c hc => ⟨resetOf_inv hc, resetOf_frameInv c, rfl, rfl⟩, resetOf_inv (c := cfgDefault) (by decide),
    resetOf_frameInv cfgDefault⟩

/-! Qualifying ticks. -/

theorem qtick_legalDigits {s : State} (h : Ready s) :
    (qtick s).dig.d0.toNat ≤ 9 ∧ (qtick s).dig.d1.toNat ≤ 9 ∧ (qtick s).dig.d2.toNat ≤ 9 := by
  have ⟨_, _, hrc, hcur, h0, h1, h2, _⟩ := h
  have hold : s.dig.d0.toNat ≤ 9 ∧ s.dig.d1.toNat ≤ 9 ∧ s.dig.d2.toNat ≤ 9 := ⟨h0, h1, h2⟩
  obtain hstart | ⟨hlo, hhi⟩ | hlo : s.rc = 0 ∨ (1 ≤ s.rc ∧ s.rc ≤ 24) ∨ 25 ≤ s.rc := by omega
  · rw [(qtick_start hstart).1]
    split
    case isTrue hspeed => exact digitsOf_toNat_le hspeed
    case isFalse => exact hold
  · rwa [(qtick_segment hlo hhi hcur).1]
  · rwa [(qtick_hold (refreshCycle_ge_of_ready h) hlo hrc).1]

theorem qtick_legalCursor {s : State} (h : Ready s) : (qtick s).curD ≠ 3 := by
  have ⟨_, _, hrc, hcur, _⟩ := h
  obtain hstart | ⟨hlo, hhi⟩ | hlo : s.rc = 0 ∨ (1 ≤ s.rc ∧ s.rc ≤ 24) ∨ 25 ≤ s.rc := by omega
  · obtain ⟨-, hd, -⟩ := qtick_start hstart
    rw [hd]; decide
  · obtain ⟨-, hd, -⟩ := qtick_segment hlo hhi hcur
    rw [hd]; exact nextCurD_ne_three hcur s.curS
  · obtain ⟨-, hd, -⟩ := qtick_hold (refreshCycle_ge_of_ready h) hlo hrc
    rwa [hd]

/-- A qualifying tick keeps every element in its range. -/
theorem qtick_ready {s : State} (h : Ready s) : Ready (qtick s) := by
  obtain ⟨hd0, hd1, hd2⟩ := qtick_legalDigits h
  obtain ⟨-, hwc, -, -, -, -, -, htally⟩ := muxEntry_ready h
  have hrc : (qtick s).rc < (qtick s).cfg.R := by
    have hR := refreshCycle_ge_of_ready h
    rw [qtick_rc, qtick_cfg]
    exact Nat.mod_lt _ (by omega)
  refine ⟨(qtick_cfg s).symm ▸ h.1, ?_, hrc, qtick_legalCursor h, hd0, hd1, hd2, ?_⟩
  · rwa [qtick_eq, State.setRc_wc, State.setRc_cfg, phaseAction_wc, phaseAction_cfg]
  · rwa [qtick_eq, State.setRc_tally, State.setRc_cfg, phaseAction_tally, phaseAction_cfg]

theorem qtick_speed_le {s : State} (h : s.speed.toNat ≤ 999) : (qtick s).speed.toNat ≤ 999 := by
  rw [qtick_speed]
  split
  · rw [clampSpeed_toNat]; exact Nat.min_le_right _ _
  · exact h

/-- A qualifying tick keeps the invariant of 10_state.md R39: `DE_N` falls on leaving `RC = 0` and rises on reaching it,
`SB` rises on reaching `RC = 1` and falls on leaving it. -/
theorem qtick_inv {s : State} (h : Inv s) : Inv (qtick s) := by
  obtain ⟨hready, hspeed, hdeN, hsb⟩ := h
  have ⟨⟨_, hR, _⟩, _, hrc, hcur, _⟩ := hready
  refine ⟨qtick_ready hready, qtick_speed_le hspeed, ?_⟩
  rw [qtick_cfg]
  obtain hstart | ⟨hlo, hhi⟩ | ⟨hlo, hhi⟩ | hlast :
      s.rc = 0 ∨ (1 ≤ s.rc ∧ s.rc ≤ 24) ∨ (25 ≤ s.rc ∧ s.rc + 1 < s.cfg.R) ∨ s.rc + 1 = s.cfg.R := by omega
  · obtain ⟨-, -, -, hdeN', hsb', -⟩ := qtick_start hstart
    rw [hdeN', hsb', qtick_rc_of_lt (by omega)]
    exact ⟨iff_of_true rfl (by omega), iff_of_true rfl (by omega)⟩
  · obtain ⟨-, -, -, hdeN', hsb', -⟩ := qtick_segment hlo hhi hcur
    rw [hdeN', hsb', qtick_rc_of_lt (by omega), hdeN]
    exact ⟨by omega, iff_of_false Bool.false_ne_true (by omega)⟩
  · obtain ⟨-, -, -, hdeN', hsb', -⟩ := qtick_hold hR hlo hrc
    rw [hdeN', hsb', if_neg (by omega), qtick_rc_of_lt hhi, hdeN, hsb]
    exact ⟨by omega, by omega⟩
  · obtain ⟨-, -, -, hdeN', hsb', -⟩ := qtick_hold hR (by omega) hrc
    rw [hdeN', hsb', if_pos hlast, qtick_rc_of_last hlast, hsb]
    exact ⟨iff_of_false (Ne.symm Bool.false_ne_true) (by omega), by omega⟩

/-- `SDO`'s bit depends on the ROM, the digits and the cursor only. -/
theorem cursorBit_congr {s t : State} (hcfg : t.cfg = s.cfg) (hdig : t.dig = s.dig) (hd : t.curD = s.curD)
    (hs : t.curS = s.curS) : cursorBit t = cursorBit s := by
  rw [cursorBit, cursorBit, hcfg, hdig, hd, hs]

/-- The bit SEGMENT drives is that of the cursor it leaves (44_display_multiplexer.md R134). -/
theorem cursorBit_eq_segmentBit {s t : State} (hcfg : t.cfg = s.cfg) (hdig : t.dig = s.dig)
    (hd : t.curD = nextCurD s.curD s.curS) (hs : t.curS = nextCurS s.curS) : cursorBit t = segmentBit s := by
  rw [cursorBit, segmentBit, segmentDigit, hcfg, hdig, hd, hs]

/-- Position 23 is the last of the frame (44_display_multiplexer.md R135). -/
theorem cursor_of_last_position {d : BitVec 2} {c : BitVec 3} (h : 8 * d.toNat + c.toNat = 23) : d = 2 ∧ c = 7 := by
  constructor <;> bv_omega

/-- A qualifying tick keeps the place of the cursor and of `SDO`: START sets the cursor to the last position, from which the
first SEGMENT tick advances it to position 0, and the last to the last position again. -/
theorem qtick_frameInv {s : State} (h : Ready s) (hframe : FrameInv s) : FrameInv (qtick s) := by
  obtain ⟨hends, hseg, hsdo⟩ := hframe
  have ⟨⟨_, hR, _⟩, _, hrc, hcur, _⟩ := h
  simp only [spc, nseg] at hends hseg
  obtain hstart | ⟨hlo, hhi⟩ | hlo : s.rc = 0 ∨ (1 ≤ s.rc ∧ s.rc ≤ 24) ∨ 25 ≤ s.rc := by omega
  · obtain ⟨-, hd, hs, -⟩ := qtick_start hstart
    have hrc' : (qtick s).rc = 1 := by rw [qtick_rc_of_lt (by omega), hstart]
    exact ⟨fun _ => ⟨hd, hs⟩, by omega, by omega⟩
  · obtain ⟨hdig, hd, hs, -, -, hbit⟩ := qtick_segment hlo hhi hcur
    have hrc' : (qtick s).rc = s.rc + 1 := qtick_rc_of_lt (by omega)
    have hpos : 8 * (qtick s).curD.toNat + (qtick s).curS.toNat = s.rc - 1 := by
      rw [hd, hs, advance_position hcur]
      obtain h1 | h2 : s.rc = 1 ∨ 2 ≤ s.rc := by omega
      · obtain ⟨hd2, hs7⟩ := hends (by omega)
        rw [hd2, hs7, h1]; rfl
      · have := hseg ⟨h2, by omega⟩
        omega
    refine ⟨fun hend => ?_, fun _ => ?_, fun _ => ?_⟩
    · simp only [spc] at hend
      exact cursor_of_last_position (by omega)
    · simp only [nseg]; omega
    · rw [hbit, cursorBit_eq_segmentBit (qtick_cfg s) hdig hd hs]
  · obtain ⟨hdig, hd, hs, -, -, hbit⟩ := qtick_hold hR hlo hrc
    obtain ⟨hd2, hs7⟩ := hends (.inr hlo)
    refine ⟨fun _ => ⟨hd.trans hd2, hs.trans hs7⟩, fun ⟨hge, hle⟩ => ?_, fun _ => ?_⟩
    · rw [qtick_rc] at hge hle
      simp only [spc] at hle
      obtain hlt | hlast : s.rc + 1 < s.cfg.R ∨ s.rc + 1 = s.cfg.R := by omega
      · rw [Nat.mod_eq_of_lt hlt] at hle; omega
      · rw [hlast, Nat.mod_self] at hge; omega
    · rw [hbit, cursorBit_congr (qtick_cfg s) hdig hd hs, hsdo (by omega)]

/-! Operation words. -/

/-- EDGE keeps the tally in its range (41_edge_counter.md R101). -/
theorem satInc_le {n v : Nat} (h : v ≤ 2 ^ n - 1) : satInc n v ≤ 2 ^ n - 1 := by
  rw [satInc_eq_min h]; exact Nat.min_le_right _ _

theorem exec_ready {i : Instr} {s t : State} (hword : WellFormed i = true) (h : Ready s) (hexec : exec i s = .next t) :
    Ready t := by
  obtain ⟨-, rfl⟩ | ⟨-, rfl⟩ | ⟨-, -, rfl⟩ | ⟨-, -, rfl⟩ | ⟨-, rfl⟩ := exec_ready_cases hword h hexec
  · exact h
  · obtain ⟨hc, hwc, hrc, hcur, h0, h1, h2, htally⟩ := h
    exact ⟨hc, hwc, hrc, hcur, h0, h1, h2, satInc_le htally⟩
  · exact h
  · exact qtick_ready h
  · exact h

/-- Of the words only a qualifying TICK writes what the invariants speak of, but for the tally. -/
theorem exec_inv {i : Instr} {s t : State} (hword : WellFormed i = true) (h : Inv s) (hexec : exec i s = .next t) :
    Inv t := by
  have hready := exec_ready hword h.1 hexec
  obtain ⟨-, rfl⟩ | ⟨-, rfl⟩ | ⟨-, -, rfl⟩ | ⟨-, -, rfl⟩ | ⟨-, rfl⟩ := exec_ready_cases hword h.1 hexec
  · exact h
  · exact ⟨hready, h.2⟩
  · exact h
  · exact qtick_inv h
  · exact h

theorem exec_frameInv {i : Instr} {s t : State} (hword : WellFormed i = true) (h : Ready s) (hframe : FrameInv s)
    (hexec : exec i s = .next t) : FrameInv t := by
  obtain ⟨-, rfl⟩ | ⟨-, rfl⟩ | ⟨-, -, rfl⟩ | ⟨-, -, rfl⟩ | ⟨-, rfl⟩ := exec_ready_cases hword h hexec
  · exact hframe
  · exact hframe
  · exact hframe
  · exact qtick_frameInv h hframe
  · exact hframe

/-! Steps. -/

/-- Settles O52: a step is a word, which keeps the invariant, or a reset under the same configuration. -/
theorem everyStepKeepsTheInvariant : Obligations.EveryStepKeepsTheInvariant := by
  intro s t hinv hstep
  obtain ⟨w, rest, -, hop⟩ | ⟨rest, hreset⟩ := step_cases s
  · exact exec_inv (s := { s with env := rest }) (wellFormed_decodeWord w) hinv (hop ▸ hstep)
  · cases hreset.symm.trans hstep
    exact resetOf_inv hinv.1.1

/-- Settles O53, with the same two cases. -/
theorem everyStepKeepsTheFrame : Obligations.EveryStepKeepsTheFrame := by
  intro s t hinv hframe hstep
  obtain ⟨w, rest, -, hop⟩ | ⟨rest, hreset⟩ := step_cases s
  · exact exec_frameInv (s := { s with env := rest }) (wellFormed_decodeWord w) hinv.1 hframe (hop ▸ hstep)
  · cases hreset.symm.trans hstep
    exact resetOf_frameInv s.cfg

end Sys2Proof.Machine
end

section
/-! SUPPORT. An operation as a sequence of writes: what every kind of write keeps, every operation keeps. The statements of
00_scope.md R15 (the trace) and 10_state.md R38 (FAULT and REFUSED) follow. -/

namespace Sys2Proof.Machine

/-! Writes. -/

/-- One write of an operation that drives allowed pins only: registers, a pin, a fault or a refusal. -/
inductive Write (allowed : Pin → Prop) (s : State) : State → Prop where
  | registers (tally wc : Nat) (speed : BitVec 10) (dig : Digits) (rc : Nat) (curD : BitVec 2) (curS : BitVec 3)
      (romOut : Option Pattern) : Write allowed s { s with
        tally := tally, wc := wc, speed := speed, dig := dig, rc := rc, curD := curD, curS := curS, romOut := romOut }
  | drive (p : Pin) (v : Level) (hp : allowed p) : Write allowed s (drive p v s)
  | raise (f : FaultRecord) : Write allowed s (raise f s)
  | refuse : Write allowed s (refuse s)

/-- `t` is reached from `s` by writes. -/
def Writes (allowed : Pin → Prop) (s t : State) : Prop := Relation.ReflTransGen (Write allowed) s t

section
variable {allowed : Pin → Prop}

theorem writes_refl (s : State) : Writes allowed s s := .refl

theorem Writes.trans {s t u : State} (hst : Writes allowed s t) (htu : Writes allowed t u) : Writes allowed s u :=
  Relation.ReflTransGen.trans hst htu

theorem Writes.mono {allowed' : Pin → Prop} {s t : State} (h : Writes allowed s t) (hsub : ∀ p, allowed p → allowed' p) :
    Writes allowed' s t := by
  refine Relation.ReflTransGen.mono (fun a b hab => ?_) _ _ h
  cases hab with
  | registers => exact .registers ..
  | drive p v hp => exact .drive p v (hsub p hp)
  | raise f => exact .raise f
  | refuse => exact .refuse

theorem writes_registers (s : State) (tally wc : Nat) (speed : BitVec 10) (dig : Digits) (rc : Nat) (curD : BitVec 2)
    (curS : BitVec 3) (romOut : Option Pattern) : Writes allowed s { s with
      tally := tally, wc := wc, speed := speed, dig := dig, rc := rc, curD := curD, curS := curS, romOut := romOut } :=
  .single (.registers ..)

theorem writes_drive {p : Pin} (hp : allowed p) (v : Level) (s : State) : Writes allowed s (drive p v s) :=
  .single (.drive p v hp)

theorem writes_raise (f : FaultRecord) (s : State) : Writes allowed s (raise f s) := .single (.raise f)

theorem writes_refuse (s : State) : Writes allowed s (refuse s) := .single .refuse

theorem writes_raiseAll (fs : List FaultRecord) (s : State) : Writes allowed s (raiseAll fs s) := by
  induction fs generalizing s with
  | nil => exact writes_refl s
  | cons f fs ih => exact (writes_raise f s).trans (ih (raise f s))

/-! Each operation is a sequence of writes. -/

theorem writes_decomposeSpeed (s : State) : Writes allowed s (decomposeSpeed s) := by
  rw [decomposeSpeed]
  split
  · exact writes_raise _ s
  · exact writes_registers s ..

theorem writes_segLut (a : Digit) (s : State) : Writes allowed s (segLut a s) := by
  rw [segLut]
  split
  · exact writes_registers s ..
  · exact (writes_registers s ..).trans (writes_raise _ (s.setRomOut 0))

theorem writes_segLutAtCursor (s : State) : Writes allowed s (segLutAtCursor s) := by
  rw [segLutAtCursor]
  split
  · exact writes_segLut _ s
  · exact writes_raise _ s

theorem writes_rwDec (s : State) : Writes allowed s (rwDec s) := by
  rw [rwDec]
  split
  · exact writes_raise _ s
  · exact writes_registers s ..

theorem writes_rateWindow (s : State) : Writes allowed s (rateWindow s) := by
  rw [rateWindow_eq]
  exact writes_registers s ..

end

/-- The pins of the display interface (10_state.md R33 to R35). -/
def FramePin (p : Pin) : Prop := p = .deN ∨ p = .sb ∨ p = .sdo

theorem writes_dmuxStart (s : State) : Writes FramePin s (dmuxStart s) :=
  (writes_decomposeSpeed s).trans <| (writes_registers _ ..).trans <|
    (writes_drive (.inl rfl) false ((decomposeSpeed s).setCursor 2 7)).trans (writes_drive (.inr (.inl rfl)) true _)

theorem writes_dmuxSegment (s : State) : Writes FramePin s (dmuxSegment s) := by
  obtain ⟨-, h⟩ | ⟨-, h⟩ := dmuxSegment_cases s <;> rw [h]
  · exact writes_raise _ s
  · exact (writes_drive (.inr (.inl rfl)) false s).trans <| (writes_registers _ ..).trans <|
      (writes_segLut _ (advance (drive .sb false s))).trans (writes_drive (.inr (.inr rfl)) _ _)

theorem writes_dmuxEnd (s : State) : Writes FramePin s (dmuxEnd s) := writes_drive (.inl rfl) true s

theorem writes_phaseAction (p : Phase) (s : State) : Writes FramePin s (phaseAction p s) := by
  cases p with
  | start => exact writes_dmuxStart s
  | segment => exact writes_dmuxSegment s
  | idle => exact writes_refl s
  | finish => exact writes_dmuxEnd s

theorem writes_tickRun (s : State) : Writes FramePin s (tickRun s) := by
  rw [tickRun_eq]
  exact (writes_rateWindow s).trans <| (writes_phaseAction _ _).trans (writes_registers _ ..)

/-- No restriction: an operation may drive every pin. -/
def AnyPin (_ : Pin) : Prop := True

theorem writes_schedulerTick (s : State) : Writes AnyPin s (schedulerTick s) := by
  have htoggle : Writes AnyPin s (drive .clk (!s.clk) s) := writes_drive trivial _ s
  rw [schedulerTick]
  split
  · exact htoggle
  · exact htoggle.trans ((writes_tickRun _).mono fun _ _ => trivial)

theorem writes_countEdge (s : State) : Writes AnyPin s (countEdge s) :=
  (writes_registers s ..).trans (writes_drive trivial _ (s.setTally (satInc s.cfg.TW s.tally)))

theorem writes_bodyOf (i : Instr) (s : State) : Writes AnyPin s (bodyOf i s) := by
  have hany : ∀ p, FramePin p → AnyPin p := fun _ _ => trivial
  cases i with
  | nop | tickSkip | dmuxIdle => exact writes_refl s
  | tick => exact writes_schedulerTick s
  | edge => exact writes_countEdge s
  | reserved11 => exact writes_refuse s
  | tickRun => exact (writes_tickRun s).mono hany
  | rwRoll => exact writes_registers s ..
  | rwDec => exact writes_rwDec s
  | dmuxStart => exact (writes_dmuxStart s).mono hany
  | dmuxSegment => exact (writes_dmuxSegment s).mono hany
  | dmuxEnd => exact (writes_dmuxEnd s).mono hany
  | decompose => exact writes_decomposeSpeed s
  | seglut => exact writes_segLutAtCursor s

/-- Whichever way an operation goes, it goes by writes from its entry. -/
theorem writes_exec {i : Instr} {s t : State} (h : exec i s = .next t) : Writes AnyPin (entryOf i s) t := by
  obtain rfl | rfl | ⟨-, -, rfl⟩ := exec_cases h
  · exact writes_refuse _
  · exact writes_raiseAll _ _
  · exact writes_bodyOf i _

/-! What every write keeps. -/

/-- No write touches the configuration or Env's moves (20_memory.md R64). -/
theorem Writes.cfg_env {allowed : Pin → Prop} {s t : State} (h : Writes allowed s t) : t.cfg = s.cfg ∧ t.env = s.env := by
  induction h with
  | refl => exact ⟨rfl, rfl⟩
  | tail _ hw ih =>
    rw [← ih.1, ← ih.2]
    cases hw with
    | registers => exact ⟨rfl, rfl⟩
    | drive p v => exact ⟨drive_cfg p v _, drive_env p v _⟩
    | raise f => exact ⟨raise_cfg f _, raise_env f _⟩
    | refuse => exact ⟨rfl, rfl⟩

theorem exec_cfg_env {i : Instr} {s t : State} (h : exec i s = .next t) : t.cfg = s.cfg ∧ t.env = s.env := by
  have hkept := (writes_exec h).cfg_env
  rwa [entryOf_frame] at hkept

/-- A write may add to `FAULT` and set `REFUSED`, and undoes neither (10_state.md R38). -/
theorem Writes.marks {allowed : Pin → Prop} {s t : State} (h : Writes allowed s t) :
    (∀ f ∈ s.faults, f ∈ t.faults) ∧ (s.refused = true → t.refused = true) := by
  induction h with
  | refl => exact ⟨fun _ hf => hf, id⟩
  | @tail t u _ hw ih =>
    obtain ⟨hfaults, hrefused⟩ := ih
    suffices hstep : (∀ f ∈ t.faults, f ∈ u.faults) ∧ (t.refused = true → u.refused = true) from
      ⟨fun f hf => hstep.1 f (hfaults f hf), fun hr => hstep.2 (hrefused hr)⟩
    cases hw with
    | registers => exact ⟨fun _ hf => hf, id⟩
    | drive p v => rw [drive_faults, drive_refused]; exact ⟨fun _ hf => hf, id⟩
    | raise g => exact ⟨fun f hf => (mem_raise_faults f g t).2 (.inl hf), fun hr => (raise_refused g t).trans hr⟩
    | refuse => exact ⟨fun _ hf => hf, fun _ => rfl⟩

/-- Settles O45: an operation is a sequence of writes. -/
theorem faultAndRefusedNeverClear : Obligations.FaultAndRefusedNeverClear := by
  intro i s t hexec
  have hmarks := (writes_exec hexec).marks
  rwa [entryOf_frame] at hmarks

/-- Settles O44: each word Env may present is stopped by the state-range check; that FAULT only grows is O45. -/
theorem illegalStateRecordsStateRange : Obligations.IllegalStateRecordsStateRange := by
  refine ⟨fun i s hpresentable hc hill => ?_, fun i s t hexec => (faultAndRefusedNeverClear i s t hexec).1, rfl, rfl, rfl⟩
  refine ⟨_, ?_, rangeFault_raiseAll hill⟩
  cases i with
  | nop => exact exec_nop_of_not_legal hc hill
  | tick => exact exec_tick_of_not_legal hc hill
  | edge => exact exec_edge_of_not_legal hc hill
  | _ => cases hpresentable

/-! The trace of a sequence of writes. -/

/-- The trace grew by events on allowed pins, each of which changes its pin's level, and which lead from the pins of `s` to
those of `t`. -/
def PinChanges (allowed : Pin → Prop) (s t : State) : Prop :=
  ∃ es u, t.trace = s.trace ++ es ∧ (∀ e ∈ es, allowed e.1) ∧ playTrace s es = some u ∧ ∀ p, u.pin p = t.pin p

section
variable {allowed : Pin → Prop}

theorem pinChanges_of_same {s t : State} (htrace : t.trace = s.trace) (hpins : ∀ p, t.pin p = s.pin p) :
    PinChanges allowed s t := ⟨[], s, by rw [htrace, List.append_nil], by simp, rfl, fun p => (hpins p).symm⟩

theorem PinChanges.trans {s t u : State} (hst : PinChanges allowed s t) (htu : PinChanges allowed t u) :
    PinChanges allowed s u := by
  obtain ⟨es, a, htrace, hes, hplay, hpins⟩ := hst
  obtain ⟨fs, b, htrace', hfs, hplay', hpins'⟩ := htu
  obtain ⟨-, hnone⟩ | ⟨c, d, hc, hd, hcd⟩ := playTrace_congr hpins fs
  · cases hnone.symm.trans hplay'
  · cases hd.symm.trans hplay'
    refine ⟨es ++ fs, c, by rw [htrace', htrace, List.append_assoc], ?_, ?_, fun p => (hcd p).trans (hpins' p)⟩
    · exact fun e he => (List.mem_append.1 he).elim (hes e) (hfs e)
    · rw [playTrace_append, hplay, Option.bind_some, hc]

/-- A drive is one event where it changes the level (R15). -/
theorem pinChanges_drive {p : Pin} (hp : allowed p) (v : Level) (s : State) : PinChanges allowed s (drive p v s) := by
  by_cases hv : s.pin p = v
  · rw [drive_of_eq hv]
    exact pinChanges_of_same rfl fun _ => rfl
  · refine ⟨[(p, v)], s.setPin p v, by rw [drive_trace, if_neg hv], by simpa, by rw [playTrace, if_neg hv]; rfl, fun q => ?_⟩
    rw [setPin_pin, drive_pin]

theorem Writes.pinChanges {s t : State} (h : Writes allowed s t) : PinChanges allowed s t := by
  induction h with
  | refl => exact pinChanges_of_same rfl fun _ => rfl
  | @tail t u _ hw ih =>
    refine ih.trans ?_
    cases hw with
    | registers => exact pinChanges_of_same rfl fun p => by cases p <;> rfl
    | drive p v hp => exact pinChanges_drive hp v t
    | raise f => exact pinChanges_of_same (raise_trace f t) fun p => by cases p <;> simp
    | refuse => exact pinChanges_of_same rfl fun p => by cases p <;> rfl

end

theorem entryOf_trace (i : Instr) (s : State) : (entryOf i s).trace = if WellFormed i = true then [] else s.trace := by
  unfold entryOf; split <;> rfl

theorem entryOf_pin (i : Instr) (s : State) (p : Pin) : (entryOf i s).pin p = s.pin p := by
  rw [entryOf_frame]; cases p <;> rfl

/-- Settles O48: entry leaves the pins, so that the events play the same from the state before it. -/
theorem traceIsTheLevelChanges : Obligations.TraceIsTheLevelChanges := by
  intro i s t hexec
  obtain ⟨es, u, htrace, -, hplay, hpins⟩ := (writes_exec hexec).pinChanges
  obtain ⟨hnone, -⟩ | ⟨a, b, ha, hb, hab⟩ := playTrace_congr (entryOf_pin i s) es
  · cases hnone.symm.trans hplay
  · cases ha.symm.trans hplay
    exact ⟨es, b, entryOf_trace i s ▸ htrace, hb, fun p => (hab p).symm.trans (hpins p)⟩

end Sys2Proof.Machine
end

section
/-! SUPPORT. What a qualifying tick and the other words leave, word by word: the statements of 42_tick_scheduler.md R113 to
R115, 44_display_multiplexer.md R132 and R142, and 60_exceptions.md R175. -/

namespace Sys2Proof.Machine

/-- Settles O19: START decomposes the `SPEED` that RATE_WINDOW left in the same tick. -/
theorem startOnARolloverShowsTheNewSpeed : Obligations.StartOnARolloverShowsTheNewSpeed := by
  intro s hready hclk hwc hrc
  have hR := refreshCycle_ge_of_ready hready
  obtain ⟨hdig, -⟩ := qtick_start hrc
  have hspeed : (qtick s).speed.toNat = min s.tally 999 := by rw [qtick_speed, if_pos hwc, clampSpeed_toNat]
  have hle : (qtick s).speed.toNat ≤ 999 := hspeed ▸ Nat.min_le_right _ _
  refine ⟨qtick s, exec_tick_qualifying hready hclk, hspeed, ?_, ?_⟩
  · rw [hdig, if_pos hle, digitsOf_reconstruct hle, hspeed]
  · rw [qtick_rc_of_lt (by omega), hrc]

/-! `CLK` (42_tick_scheduler.md R114). -/

/-- Of the words TICK alone writes `CLK`, and it toggles it. -/
theorem exec_clk {i : Instr} {s t : State} (hword : WellFormed i = true) (h : Ready s) (hexec : exec i s = .next t) :
    t.clk = if i = .tick then !s.clk else s.clk := by
  obtain ⟨rfl, rfl⟩ | ⟨rfl, rfl⟩ | ⟨rfl, hclk, rfl⟩ | ⟨rfl, hclk, rfl⟩ | ⟨rfl, rfl⟩ := exec_ready_cases hword h hexec
  · rfl
  · rfl
  · rw [if_pos rfl, hclk]; rfl
  · rw [if_pos rfl, qtick_clk, hclk]; rfl
  · rfl

/-- A run of TICKs from a state in range: after each, `CLK` has the other level. -/
theorem performTimes_tick_clk (k : Nat) {s : State} (h : Ready s) :
    ∃ t, performTimes k .tick s = .next t ∧ (t.clk = true ↔ (k + s.clk.toNat) % 2 = 1) := by
  induction k generalizing s with
  | zero => exact ⟨s, rfl, by cases s.clk <;> simp⟩
  | succ k ih =>
    obtain ⟨u, hexec⟩ := exec_completes .tick s
    obtain ⟨t, hrun, hclk⟩ := ih (exec_ready rfl h hexec)
    refine ⟨t, by rw [performTimes, List.replicate_succ, performAll, hexec]; exact hrun, hclk.trans ?_⟩
    rw [exec_clk rfl h hexec, if_pos rfl]
    cases s.clk with
    | false => simp
    | true => simp only [Bool.not_true, Bool.toNat_false, Bool.toNat_true]; omega

/-- Settles O20: reset leaves `CLK` low, so a TICK qualifies after an odd number of others. -/
theorem everySecondTickQualifies : Obligations.EverySecondTickQualifies := by
  refine ⟨fun i s t => exec_clk, fun c k hc => ?_⟩
  obtain ⟨t, hrun, hclk⟩ := performTimes_tick_clk k (resetOf_inv hc).1
  exact ⟨t, hrun, hclk⟩

/-! The digits (44_display_multiplexer.md R132). -/

/-- A qualifying tick rewrites the digits at `RC = 0` only, from the `SPEED` it leaves. -/
theorem qtick_dig {s : State} (h : Ready s) :
    (qtick s).dig = if s.rc = 0 ∧ (qtick s).speed.toNat ≤ 999 then digitsOf (qtick s).speed else s.dig := by
  have ⟨_, _, hrc, hcur, _⟩ := h
  obtain hstart | ⟨hlo, hhi⟩ | hlo : s.rc = 0 ∨ (1 ≤ s.rc ∧ s.rc ≤ 24) ∨ 25 ≤ s.rc := by omega
  · rw [(qtick_start hstart).1, hstart]
    simp
  · rw [(qtick_segment hlo hhi hcur).1, if_neg (by omega)]
  · rw [(qtick_hold (refreshCycle_ge_of_ready h) hlo hrc).1, if_neg (by omega)]

/-- Settles O36. -/
theorem digitsChangeOnlyAtFrameStart : Obligations.DigitsChangeOnlyAtFrameStart := by
  intro i s t hword hready hexec
  obtain ⟨rfl, rfl⟩ | ⟨rfl, rfl⟩ | ⟨rfl, hclk, rfl⟩ | ⟨rfl, hclk, rfl⟩ | ⟨rfl, rfl⟩ :=
    exec_ready_cases hword hready hexec
  · simp
  · simp
  · simp [hclk]
  · simp only [qtick_dig hready, hclk, true_and]
  · simp

/-! The frame's pins (42_tick_scheduler.md R115, 44_display_multiplexer.md R142). -/

/-- Settles O37: the fall of `CLK` is the trace TICK_RUN begins with, and it drives the frame's pins only. -/
theorem frameOutputsChangeAfterFallingClockEdges : Obligations.FrameOutputsChangeAfterFallingClockEdges := by
  intro i s t hword hready hexec
  obtain ⟨rfl, rfl⟩ | ⟨rfl, rfl⟩ | ⟨rfl, hclk, rfl⟩ | ⟨rfl, hclk, rfl⟩ | ⟨rfl, rfl⟩ :=
    exec_ready_cases hword hready hexec
  · simp
  · simp
  · simp [hclk]
  · obtain ⟨es, -, htrace, hpins, -, -⟩ := (writes_tickRun (toggledLow s)).pinChanges
    exact ⟨fun hno => absurd ⟨rfl, hclk⟩ hno, fun _ => ⟨es, htrace, hpins⟩⟩
  · simp

end Sys2Proof.Machine
end

section
/-! SUPPORT. The writers of each element (20_memory.md R64, 10_state.md R22), over all operations. -/

namespace Sys2Proof.Machine

/-! What an operation performs. -/

/-- The operation runs the two processes: it is TICK_RUN, or a TICK that qualifies (30_encoding.md R75). -/
def RunsProcesses (i : Instr) (s : State) : Prop := i = .tickRun ∨ i = .tick ∧ qualifying s = true

theorem performs_self (i : Instr) (s : State) : Performs i s i := .inl rfl

theorem selectWindow_mem_microOperations (s : State) : selectWindow s.wc ∈ microOperations s := by
  unfold microOperations; split <;> exact List.mem_cons_self

theorem selectPhase_mem_microOperations (s : State) : selectPhase s.cfg.R s.rc ∈ microOperations s := by
  unfold microOperations; split <;> simp [*]

theorem performs_rwRoll {i : Instr} {s : State} (h : RunsProcesses i s) (hwc : s.wc = 0) : Performs i s .rwRoll :=
  .inr ⟨h, by simpa [hwc, selectWindow_zero] using selectWindow_mem_microOperations s⟩

theorem performs_rwDec {i : Instr} {s : State} (h : RunsProcesses i s) (hwc : s.wc ≠ 0) : Performs i s .rwDec :=
  .inr ⟨h, selectWindow_of_ne_zero hwc ▸ selectWindow_mem_microOperations s⟩

/-- The row of a phase. -/
def phaseRow : Phase → Instr
  | .start => .dmuxStart
  | .segment => .dmuxSegment
  | .idle => .dmuxIdle
  | .finish => .dmuxEnd

theorem selectPhase_eq_phaseRow (R rc : Nat) : selectPhase R rc = phaseRow (phaseOf R rc) := by
  rw [selectPhase]; cases phaseOf R rc <;> rfl

theorem performs_phaseRow {i : Instr} {s : State} (h : RunsProcesses i s) {p : Phase} (hp : phaseOf s.cfg.R s.rc = p) :
    Performs i s (phaseRow p) :=
  .inr ⟨h, by simpa [selectPhase_eq_phaseRow, hp] using selectPhase_mem_microOperations s⟩

/-! The writers. -/

/-- Each element that differs in `t` has one of its listed writers among what `i` performs from `s`; a write of `SPEED` is
the capture. -/
structure ListedWriters (i : Instr) (s t : State) : Prop where
  tally : t.tally ≠ s.tally → i = .edge ∨ Performs i s .rwRoll
  wc : t.wc ≠ s.wc → Performs i s .rwRoll ∨ Performs i s .rwDec
  speed : t.speed ≠ s.speed → Performs i s .rwRoll ∧ t.speed = clampSpeed s.tally
  dig : t.dig ≠ s.dig → Performs i s .dmuxStart ∨ i = .decompose
  rc : t.rc ≠ s.rc → RunsProcesses i s
  cursor : t.curD ≠ s.curD ∨ t.curS ≠ s.curS → Performs i s .dmuxStart ∨ Performs i s .dmuxSegment
  clk : t.clk ≠ s.clk → i = .tick
  stat : t.stat ≠ s.stat → i = .edge
  deN : t.deN ≠ s.deN → Performs i s .dmuxStart ∨ Performs i s .dmuxEnd
  sb : t.sb ≠ s.sb → Performs i s .dmuxStart ∨ Performs i s .dmuxSegment
  sdo : t.sdo ≠ s.sdo → Performs i s .dmuxSegment

/-- What changes the outputs and the bookkeeping only has no listed writer to name. -/
theorem listedWriters_of_outputs (i : Instr) (s : State) (faults : List FaultRecord) (refused : Bool) (trace : List PinEvent)
    (romOut : Option Pattern) :
    ListedWriters i s { s with faults := faults, refused := refused, trace := trace, romOut := romOut } := by
  constructor <;> simp

/-- Only the part the phase performs differs from what the phase began with (44_display_multiplexer.md R130). -/
theorem phaseAction_writes (p : Phase) (s : State) :
    ((phaseAction p s).dig ≠ s.dig → p = .start) ∧
    ((phaseAction p s).curD ≠ s.curD ∨ (phaseAction p s).curS ≠ s.curS → p = .start ∨ p = .segment) ∧
    ((phaseAction p s).deN ≠ s.deN → p = .start ∨ p = .finish) ∧
    ((phaseAction p s).sb ≠ s.sb → p = .start ∨ p = .segment) ∧
    ((phaseAction p s).sdo ≠ s.sdo → p = .segment) := by
  cases p with
  | start => simp [phaseAction]
  | segment => simp [phaseAction]
  | idle => simp [phaseAction, dmuxIdle]
  | finish => simp [phaseAction, dmuxEnd]

/-- TICK_RUN on the state of the operation, but for `CLK` and the outputs. -/
theorem listedWriters_tickRun {i : Instr} {s : State} (h : RunsProcesses i s) (clk : Level) (trace : List PinEvent)
    (romOut : Option Pattern) (hclk : clk ≠ s.clk → i = .tick) :
    ListedWriters i s (tickRun { s with clk := clk, trace := trace, romOut := romOut }) := by
  obtain ⟨hdig, hcursor, hdeN, hsb, hsdo⟩ := phaseAction_writes (phaseOf s.cfg.R s.rc)
    (rateWindow { s with clk := clk, trace := trace, romOut := romOut })
  have hphase : ∀ {p : Phase}, phaseOf s.cfg.R s.rc = p → Performs i s (phaseRow p) := performs_phaseRow h
  constructor
  case tally =>
    rw [tickRun_tally]
    split
    case isTrue hwc => exact fun _ => .inr (performs_rwRoll h hwc)
    case isFalse => exact fun hne => absurd rfl hne
  case wc =>
    by_cases hwc : s.wc = 0
    · exact fun _ => .inl (performs_rwRoll h hwc)
    · exact fun _ => .inr (performs_rwDec h hwc)
  case speed =>
    rw [tickRun_speed]
    split
    case isTrue hwc => exact fun _ => ⟨performs_rwRoll h hwc, rfl⟩
    case isFalse => exact fun hne => absurd rfl hne
  case rc => exact fun _ => h
  case clk => rw [tickRun_clk]; exact hclk
  case stat => rw [tickRun_stat]; exact fun hne => absurd rfl hne
  all_goals rw [tickRun_eq]
  case dig => exact fun hne => .inl (hphase (hdig (by simpa using hne)))
  case cursor => exact fun hne => (hcursor (by simpa using hne)).imp hphase hphase
  case deN => exact fun hne => (hdeN (by simpa using hne)).imp hphase hphase
  case sb => exact fun hne => (hsb (by simpa using hne)).imp hphase hphase
  case sdo => exact fun hne => hphase (hsdo (by simpa using hne))

theorem listedWriters_schedulerTick (s : State) : ListedWriters .tick s (schedulerTick (enterOperation s)) := by
  by_cases hclk : s.clk = true
  · rw [schedulerTick_run (s := enterOperation s) hclk]
    exact listedWriters_tickRun (.inr ⟨rfl, hclk⟩) false _ _ fun _ => rfl
  · rw [schedulerTick_skip (s := enterOperation s) (Bool.eq_false_of_not_eq_true hclk)]
    constructor <;> simp

theorem listedWriters_countEdge (s : State) : ListedWriters .edge s (countEdge (enterOperation s)) := by
  rw [countEdge_eq]
  constructor <;> simp

theorem listedWriters_rwRoll (s : State) : ListedWriters .rwRoll s (rwRoll s) := by
  rw [rwRoll_eq]
  constructor <;> simp [performs_self]

theorem listedWriters_rwDec (s : State) : ListedWriters .rwDec s (rwDec s) := by
  by_cases hwc : s.wc = 0
  · rw [rwDec, if_pos hwc, raise_eq]
    exact listedWriters_of_outputs _ s ..
  · rw [rwDec_eq hwc]
    constructor <;> simp [performs_self]

theorem listedWriters_dmuxStart (s : State) : ListedWriters .dmuxStart s (dmuxStart s) := by
  rw [dmuxStart_frame]
  constructor <;> simp [performs_self]

theorem listedWriters_dmuxSegment (s : State) : ListedWriters .dmuxSegment s (dmuxSegment s) := by
  rw [dmuxSegment_frame]
  constructor <;> simp [performs_self]

theorem listedWriters_dmuxEnd (s : State) : ListedWriters .dmuxEnd s (dmuxEnd s) := by
  rw [dmuxEnd, drive_deN_eq]
  constructor <;> simp [performs_self]

theorem listedWriters_decomposeSpeed (s : State) : ListedWriters .decompose s (decomposeSpeed s) := by
  rw [decomposeSpeed_frame]
  constructor <;> simp

theorem listedWriters_segLutAtCursor (s : State) : ListedWriters .seglut s (segLutAtCursor s) := by
  rw [segLutAtCursor]
  split
  · rw [segLut_frame]
    exact listedWriters_of_outputs _ s ..
  · rw [raise_eq]
    exact listedWriters_of_outputs _ s ..

/-- The writers of an operation that is performed. -/
theorem listedWriters_bodyOf (i : Instr) (s : State) : ListedWriters i s (bodyOf i (entryOf i s)) := by
  cases i with
  | nop | reserved11 | tickSkip | dmuxIdle => exact listedWriters_of_outputs _ s ..
  | tick => exact listedWriters_schedulerTick s
  | edge => exact listedWriters_countEdge s
  | tickRun => exact listedWriters_tickRun (.inl rfl) s.clk s.trace s.romOut fun hne => absurd rfl hne
  | rwRoll => exact listedWriters_rwRoll s
  | rwDec => exact listedWriters_rwDec s
  | dmuxStart => exact listedWriters_dmuxStart s
  | dmuxSegment => exact listedWriters_dmuxSegment s
  | dmuxEnd => exact listedWriters_dmuxEnd s
  | decompose => exact listedWriters_decomposeSpeed s
  | seglut => exact listedWriters_segLutAtCursor s

/-- Whichever way an operation goes; a refusal and a stop write no element. -/
theorem listedWriters_exec {i : Instr} {s t : State} (h : exec i s = .next t) : ListedWriters i s t := by
  obtain rfl | rfl | ⟨-, -, rfl⟩ := exec_cases h
  · rw [entryOf_frame]
    exact listedWriters_of_outputs i s ..
  · rw [raiseAll_eq, entryOf_frame]
    exact listedWriters_of_outputs i s ..
  · exact listedWriters_bodyOf i s

/-- Settles O49. -/
theorem onlyTheListedWritersWrite : Obligations.OnlyTheListedWritersWrite := by
  intro i s t hexec
  have hw := listedWriters_exec hexec
  exact ⟨hw.tally, hw.wc, fun hne => (hw.speed hne).1, hw.dig, hw.rc, hw.cursor, hw.clk, hw.stat, hw.deN, hw.sb, hw.sdo,
    exec_cfg_env hexec⟩

/-- Settles O24: where `SPEED` is written it is the capture. -/
theorem speedIsWrittenByRolloversOnly : Obligations.SpeedIsWrittenByRolloversOnly := by
  intro i s t hexec
  refine or_iff_not_imp_left.2 fun hne => ?_
  obtain ⟨hroll, hspeed⟩ := (listedWriters_exec hexec).speed hne
  exact ⟨hroll, hspeed ▸ clampSpeed_toNat s.tally⟩

end Sys2Proof.Machine
end

section
/-! SUPPORT. Where faults are recorded and where none is (60_exceptions.md R175, 20_memory.md R50, R51): the window at its
end, the ROM read, and the steps from the states of the invariant. -/

namespace Sys2Proof.Machine

/-! RW_DEC at the end of the window (notes/assumptions/15.md). -/

/-- Settles O23. -/
theorem windowCountdownAtZeroFaults : Obligations.WindowCountdownAtZeroFaults := by
  intro s hc hwc
  have hrwDec : rwDec s = raise (.stateRange .wc 0) s := by rw [rwDec, if_pos hwc, hwc]
  exact ⟨_, by rw [exec_rwDec, performMicro_ok rwDec hc, hrwDec], raise_eq _ s, fun f => mem_raise_faults f _ s⟩

/-! SEGLUT (46_segment_encoder.md R163). -/

theorem exec_seglut {s : State} (hc : ConfigOk s.cfg) : exec .seglut s = .next (segLutAtCursor s) :=
  (exec_internal rfl s).trans (congrArg _ (performMicro_ok segLutAtCursor hc))

theorem segLutAtCursor_of_entry {s : State} {a : Digit} (h : digEntry s.dig s.curD = some a) :
    segLutAtCursor s = segLut a s := by rw [segLutAtCursor, h]

/-- Entry 3 of DIG does not exist (20_memory.md R51). -/
theorem segLutAtCursor_of_three {s : State} (h : s.curD = 3) : segLutAtCursor s = raise (.stateRange .curD 3) s := by
  rw [segLutAtCursor, h]; rfl

/-- Settles O42: an index with an entry, one without, and a cursor without a digit. -/
theorem seglutAnswersTheRomEntry : Obligations.SeglutAnswersTheRomEntry := by
  refine ⟨fun s a e hc ha he => ?_, fun s a hc ha hout => ?_, fun s hc h3 => ?_⟩
  · rw [exec_seglut hc, segLutAtCursor_of_entry ha, segLut_eq hc (digit_le_of_segTable_eq_some hc he), romData_eq hc he]
  · refine ⟨_, fun f => mem_raise_faults f (.romIndex a) { s with romOut := some 0 }, ?_⟩
    rw [exec_seglut hc, segLutAtCursor_of_entry ha, segLut_out s hout, raise_eq]
  · refine ⟨_, fun f => mem_raise_faults f (.stateRange .curD 3) s, ?_⟩
    rw [exec_seglut hc, segLutAtCursor_of_three h3, raise_eq]

/-- Settles O43, by evaluation of the ROM of `cfgDefault`. -/
theorem defaultPatternsAndTheirSerialOrder : Obligations.DefaultPatternsAndTheirSerialOrder :=
  ⟨by decide, by decide, by decide⟩

/-! DMUX_SEGMENT (44_display_multiplexer.md R134). -/

/-- A digit with no ROM entry is shown as pattern 0 (20_memory.md R50). -/
theorem segmentBit_out {s : State} (h : 10 ≤ (segmentDigit s).toNat) : segmentBit s = false := by
  rw [segmentBit, romData, memRead_eq_none s.cfg h]
  exact BitVec.getLsbD_zero

/-- DMUX_SEGMENT at a digit with no ROM entry records it. -/
theorem dmuxSegment_faults_out {s : State} (hd : s.curD ≠ 3) (h : 10 ≤ (segmentDigit s).toNat) (f : FaultRecord) :
    f ∈ (dmuxSegment s).faults ↔ f ∈ s.faults ∨ f = .romIndex (segmentDigit s) := by
  obtain ⟨h3, -⟩ | ⟨-, hseg⟩ := dmuxSegment_cases s
  · exact absurd h3 hd
  · rw [hseg, shiftOut, drive_faults, segLut_out _ h, mem_raise_faults, advance, State.setCursor_faults, drive_faults]

/-- Settles O32: the cursor without a digit, and the digit without a ROM entry. -/
theorem segmentFaultsOnBadIndices : Obligations.SegmentFaultsOnBadIndices := by
  refine ⟨fun s hc h3 => ?_, fun s a hc hcur ha hout => ?_⟩
  · have hseg : dmuxSegment s = raise (.stateRange .curD 3) s := by rw [dmuxSegment, if_pos h3, h3]; rfl
    exact ⟨_, by rw [exec_dmuxSegment, performMicro_ok dmuxSegment hc, hseg], raise_eq _ s, fun f => mem_raise_faults f _ s⟩
  · have hdigit : segmentDigit s = a := by rw [segmentDigit, ha, Option.getD_some]
    subst hdigit
    obtain ⟨hd, hs, hsb, hsdo⟩ := dmuxSegment_writes hcur
    exact ⟨_, by rw [exec_dmuxSegment, performMicro_ok dmuxSegment hc], hsdo.trans (segmentBit_out hout),
      dmuxSegment_faults_out hcur hout, hd, hs, hsb⟩

/-! The states of the invariant. -/

/-- No phase faults from a state in range whose `SPEED` three digits show. -/
theorem phaseAction_faults (p : Phase) {s : State} (h : Ready s) (hspeed : s.speed.toNat ≤ 999) :
    (phaseAction p s).faults = s.faults := by
  cases p with
  | start => rw [phaseAction, dmuxStart_eq, decomposeSpeed_eq hspeed]
  | segment =>
    have ⟨hc, _, _, hcur, _⟩ := h
    rw [phaseAction, dmuxSegment_eq hc hcur (segmentDigit_le h.2)]
  | idle => rfl
  | finish => rw [phaseAction, dmuxEnd, drive_faults]

theorem qtick_faults {s : State} (h : Ready s) (hspeed : s.speed.toNat ≤ 999) : (qtick s).faults = s.faults := by
  have hspeed' : (muxEntry s).speed.toNat ≤ 999 := by
    rw [muxEntry_speed, ← qtick_speed]
    exact qtick_speed_le hspeed
  rw [qtick_eq, State.setRc_faults, phaseAction_faults _ (muxEntry_ready h) hspeed']
  exact rateWindow_faults _

/-- A word other than the reserved one keeps a good final state good. -/
theorem exec_goodFinal {i : Instr} {s t : State} (hword : WellFormed i = true) (hres : i ≠ .reserved11) (h : Inv s)
    (hgood : GoodFinal s) (hexec : exec i s = .next t) : GoodFinal t := by
  obtain ⟨hready, hspeed, -⟩ := h
  obtain ⟨-, rfl⟩ | ⟨-, rfl⟩ | ⟨-, -, rfl⟩ | ⟨-, -, rfl⟩ | ⟨rfl, -⟩ := exec_ready_cases hword hready hexec
  · exact hgood
  · exact hgood
  · exact hgood
  · rwa [GoodFinal, qtick_faults hready hspeed, qtick_refused]
  · exact absurd rfl hres

theorem decodeWord_eq_reserved11 {w : OpWord} (h : decodeWord w = .reserved11) : w = 0b11 := by
  revert h; revert w; decide

/-- Where Env does not present the reserved word, the next word is not that one: presenting nothing is the word of NOP. -/
theorem nextMove_ne_reserved {env : List EnvMove} (h : env.head? ≠ some (.op 0b11)) {w : OpWord} {rest : List EnvMove}
    (hnext : nextMove env = (.op w, rest)) : decodeWord w ≠ .reserved11 := by
  intro hres
  cases decodeWord_eq_reserved11 hres
  cases env with
  | nil => cases hnext
  | cons m ms => cases hnext; exact h rfl

/-- Settles O47: a step is a word that keeps the state good, or a reset. -/
theorem reachableStatesRecordNoFault : Obligations.ReachableStatesRecordNoFault := by
  intro s t hinv hgood hhead hstep
  obtain ⟨w, rest, hnext, hop⟩ | ⟨rest, hreset⟩ := step_cases s
  · exact exec_goodFinal (s := { s with env := rest }) (wellFormed_decodeWord w) (nextMove_ne_reserved hhead hnext) hinv
      hgood (hop ▸ hstep)
  · cases hreset.symm.trans hstep
    exact ⟨rfl, rfl⟩

end Sys2Proof.Machine
end

section
/-! SUPPORT. The decomposition as a bijection (45_digit_decomposer.md R152) and the widths of the counters
(00_scope.md R7). -/

namespace Sys2Proof.Machine

/-- The value of three decimal digits. -/
def valueOf (d : Digits) : BitVec 10 := BitVec.ofNat 10 (d.d0.toNat * 100 + d.d1.toNat * 10 + d.d2.toNat)

theorem valueOf_toNat {d : Digits} (h0 : d.d0.toNat ≤ 9) (h1 : d.d1.toNat ≤ 9) (h2 : d.d2.toNat ≤ 9) :
    (valueOf d).toNat = d.d0.toNat * 100 + d.d1.toNat * 10 + d.d2.toNat := by
  rw [valueOf, BitVec.toNat_ofNat]
  omega

theorem digits_eq_of_toNat_eq {d e : Digits} (h0 : d.d0.toNat = e.d0.toNat) (h1 : d.d1.toNat = e.d1.toNat)
    (h2 : d.d2.toNat = e.d2.toNat) : d = e := by
  cases d; cases e
  exact congr (congrArg₂ Digits.mk (BitVec.eq_of_toNat_eq h0) (BitVec.eq_of_toNat_eq h1)) (BitVec.eq_of_toNat_eq h2)

/-- Settles O41: `valueOf` is the inverse, since the digits of a value of the domain give it back. -/
theorem decompositionIsABijection : Obligations.DecompositionIsABijection := by
  intro d h0 h1 h2
  have hv := valueOf_toNat h0 h1 h2
  have hle : (valueOf d).toNat ≤ 999 := by omega
  obtain ⟨k0, k1, k2⟩ := digitsOf_toNat hle
  refine ⟨valueOf d, ⟨hle, digits_eq_of_toNat_eq (by omega) (by omega) (by omega)⟩, fun u hu hd => ?_⟩
  have hback := digitsOf_reconstruct hu
  rw [hd, ← hv] at hback
  exact BitVec.eq_of_toNat_eq hback.symm

/-- The width of a modulus of at least 2 is one above the logarithm of its greatest residue. -/
theorem modulusWidth_of_two_le {n : Nat} (h : 2 ≤ n) : modulusWidth n = Nat.log2 (n - 1) + 1 := if_neg (by omega)

/-- Settles O50: the greatest residue `n − 1` lies between the powers of 2 at its logarithm and one above. -/
theorem counterWidthsAreCeilLogTwo : Obligations.CounterWidthsAreCeilLogTwo := by
  refine ⟨fun n hn => ?_, rfl, fun c => ⟨rfl, rfl⟩, ?_⟩
  · have hupper : n - 1 < 2 ^ (Nat.log2 (n - 1) + 1) := Nat.lt_log2_self
    have hlower : 2 ^ Nat.log2 (n - 1) ≤ n - 1 := Nat.log2_self_le (by omega)
    rw [modulusWidth_of_two_le hn, Nat.add_sub_cancel]
    omega
  · rw [modulusWidth_of_two_le (by omega)]; decide

end Sys2Proof.Machine
end

section
/-! SUPPORT. Runs within a window and to its rollover (41_edge_counter.md R103, R104, 43_rate_window.md R124,
60_exceptions.md R174). -/

namespace Sys2Proof.Machine

/-! Runs. -/

theorem performAll_cons {i : Instr} {s t : State} (h : exec i s = .next t) (is : List Instr) :
    performAll (i :: is) s = performAll is t := by rw [performAll, h]

theorem performAll_append {is : List Instr} {s t : State} (h : performAll is s = .next t) (js : List Instr) :
    performAll (is ++ js) s = performAll js t := by
  induction is generalizing s with
  | nil => cases h; rfl
  | cons i is ih =>
    obtain ⟨u, hexec⟩ := exec_completes i s
    rw [performAll_cons hexec] at h
    rw [List.cons_append, performAll_cons hexec, ih h]

/-- Two TICKs from `CLK = 0` are one qualifying tick (42_tick_scheduler.md R111). -/
theorem performAll_two_ticks {s : State} (h : Ready s) (hclk : s.clk = false) (is : List Instr) :
    performAll (.tick :: .tick :: is) s = performAll is (qtick s) := by
  rw [performAll_cons (exec_tick_skip h hclk)]
  have hqualifying := exec_tick_qualifying (s := { s with clk := true, trace := [(.clk, true)], romOut := none }) h rfl
  exact performAll_cons hqualifying is

/-- `2n` TICKs from `CLK = 0` are `n` qualifying ticks. -/
theorem performTimes_tick_even (n : Nat) {s : State} (h : Ready s) (hclk : s.clk = false) :
    performTimes (2 * n) .tick s = .next (qtick^[n] s) := by
  induction n generalizing s with
  | zero => rfl
  | succ n ih =>
    rw [performTimes, Nat.mul_succ, List.replicate_succ, List.replicate_succ, performAll_two_ticks h hclk]
    exact ih (qtick_ready h) (qtick_clk s)

theorem qtick_iterate_ready (n : Nat) {s : State} (h : Ready s) : Ready (qtick^[n] s) := by
  induction n with
  | zero => exact h
  | succ n ih => rw [Function.iterate_succ_apply']; exact qtick_ready ih

@[simp] theorem qtick_iterate_cfg (n : Nat) (s : State) : (qtick^[n] s).cfg = s.cfg := by
  induction n with
  | zero => rfl
  | succ n ih => rw [Function.iterate_succ_apply', qtick_cfg, ih]

theorem qtick_iterate_clk (n : Nat) {s : State} (h : s.clk = false) : (qtick^[n] s).clk = false := by
  cases n with
  | zero => exact h
  | succ n => rw [Function.iterate_succ_apply', qtick_clk]

/-! The window (43_rate_window.md R124). -/

/-- `WC` qualifying ticks only count down. -/
theorem qtick_iterate_window {s : State} (k : Nat) (hk : k ≤ s.wc) :
    (qtick^[k] s).wc = s.wc - k ∧ (qtick^[k] s).speed = s.speed ∧ (qtick^[k] s).tally = s.tally := by
  induction k with
  | zero => exact ⟨rfl, rfl, rfl⟩
  | succ k ih =>
    obtain ⟨hwc, hspeed, htally⟩ := ih (by omega)
    have hne : (qtick^[k] s).wc ≠ 0 := by omega
    rw [Function.iterate_succ_apply', qtick_wc, qtick_speed, qtick_tally, if_neg hne, if_neg hne, if_neg hne]
    exact ⟨by omega, hspeed, htally⟩

/-- Settles O25: after `WC` qualifying ticks the window is at 0, and the next is the rollover. -/
theorem rolloverComesAfterTheWindow : Obligations.RolloverComesAfterTheWindow := by
  intro s hready hclk
  refine ⟨fun k hk => ?_, ?_⟩
  · obtain ⟨hwc, hspeed, htally⟩ := qtick_iterate_window k hk
    exact ⟨_, performTimes_tick_even k hready hclk, hwc, hspeed, htally, qtick_iterate_clk k hclk⟩
  · obtain ⟨hwc, -, htally⟩ := qtick_iterate_window s.wc le_rfl
    have hzero : (qtick^[s.wc] s).wc = 0 := by omega
    refine ⟨_, performTimes_tick_even (s.wc + 1) hready hclk, ?_⟩
    rw [Function.iterate_succ_apply', qtick_wc, qtick_speed, qtick_tally, qtick_clk, if_pos hzero, if_pos hzero,
      if_pos hzero, clampSpeed_toNat, htally, qtick_iterate_cfg]
    exact ⟨rfl, rfl, rfl, rfl⟩

/-! The qualifying ticks of a list of operations (42_tick_scheduler.md R114). -/

theorem qualifyingTicks_cons_other {i : Instr} (h : i ≠ .tick) (clk : Level) (is : List Instr) :
    qualifyingTicks clk (i :: is) = qualifyingTicks clk is := by
  rw [qualifyingTicks, List.count_cons_of_ne h, qualifyingTicks]

theorem qualifyingTicks_cons_tick_low (is : List Instr) :
    qualifyingTicks false (.tick :: is) = qualifyingTicks true is := by
  rw [qualifyingTicks, List.count_cons_self, qualifyingTicks]; rfl

theorem qualifyingTicks_cons_tick_high (is : List Instr) :
    qualifyingTicks true (.tick :: is) = qualifyingTicks false is + 1 := by
  simp only [qualifyingTicks, List.count_cons_self, if_true, Bool.false_eq_true, if_false]
  omega

/-! The tally of a window (41_edge_counter.md R104). -/

/-- What a run of NOP, TICK and EDGE without a rollover leaves of the counters; what it leaves of `CLK` is said by the
qualifying ticks of the operations after it. -/
structure WindowRun (is : List Instr) (s t : State) : Prop where
  run : performAll is s = .next t
  ready : Ready t
  cfg : t.cfg = s.cfg
  tally : t.tally = min (s.tally + is.count .edge) s.cfg.tallyMax
  wc : t.wc = s.wc - qualifyingTicks s.clk is
  speed : t.speed = s.speed
  clk : ∀ js, qualifyingTicks s.clk (is ++ js) = qualifyingTicks s.clk is + qualifyingTicks t.clk js

theorem qualifyingTicks_le_append (clk : Level) (is js : List Instr) :
    qualifyingTicks clk is ≤ qualifyingTicks clk (is ++ js) := by
  rw [qualifyingTicks, qualifyingTicks, List.count_append]
  omega

theorem qualifyingTicks_nil (clk : Level) : qualifyingTicks clk [] = 0 := by cases clk <;> rfl

theorem tally_le_of_ready {s : State} : Ready s → s.tally ≤ s.cfg.tallyMax := fun ⟨_, _, _, _, _, _, _, h⟩ => h

theorem windowRun_nil {s : State} (h : Ready s) : WindowRun [] s s where
  run := rfl
  ready := h
  cfg := rfl
  tally := (Nat.min_eq_left (tally_le_of_ready h)).symm
  wc := by rw [qualifyingTicks_nil, Nat.sub_zero]
  speed := rfl
  clk := fun js => by rw [qualifyingTicks_nil, Nat.zero_add, List.nil_append]

theorem WindowRun.append {is js : List Instr} {s t u : State} (hst : WindowRun is s t) (htu : WindowRun js t u) :
    WindowRun (is ++ js) s u where
  run := (performAll_append hst.run js).trans htu.run
  ready := htu.ready
  cfg := htu.cfg.trans hst.cfg
  tally := by rw [htu.tally, hst.tally, hst.cfg, List.count_append]; omega
  wc := by rw [htu.wc, hst.wc, hst.clk js]; omega
  speed := htu.speed.trans hst.speed
  clk := fun ks => by rw [List.append_assoc, hst.clk, htu.clk, hst.clk js, Nat.add_assoc]

/-- A word that is no qualifying TICK, from what it leaves of the counters and of `CLK`. -/
theorem windowRun_of_no_qualifyingTick {i : Instr} {s t : State} (h : Ready s) (hword : WellFormed i = true)
    (hexec : exec i s = .next t) (htally : t.tally = min (s.tally + [i].count .edge) s.cfg.tallyMax) (hwc : t.wc = s.wc)
    (hspeed : t.speed = s.speed) (hclk : ∀ js, qualifyingTicks s.clk (i :: js) = qualifyingTicks t.clk js) :
    WindowRun [i] s t where
  run := performAll_cons hexec []
  ready := exec_ready hword h hexec
  cfg := (exec_cfg_env hexec).1
  tally := htally
  wc := by rw [hclk, qualifyingTicks_nil, Nat.sub_zero, hwc]
  speed := hspeed
  clk := fun js => by rw [List.singleton_append, hclk, hclk, qualifyingTicks_nil, Nat.zero_add]

/-- A qualifying TICK that is no rollover. -/
theorem windowRun_qtick {s : State} (h : Ready s) (hclk : s.clk = true) (hwc : s.wc ≠ 0) :
    WindowRun [.tick] s (qtick s) where
  run := performAll_cons (exec_tick_qualifying h hclk) []
  ready := qtick_ready h
  cfg := qtick_cfg s
  tally := by rw [qtick_tally, if_neg hwc]; exact (Nat.min_eq_left (tally_le_of_ready h)).symm
  wc := by rw [qtick_wc, if_neg hwc, hclk, qualifyingTicks_cons_tick_high, qualifyingTicks_nil]
  speed := by rw [qtick_speed, if_neg hwc]
  clk := fun js => by
    rw [hclk, qtick_clk, List.singleton_append, qualifyingTicks_cons_tick_high, qualifyingTicks_cons_tick_high,
      qualifyingTicks_nil]
    omega

theorem windowRun_single {i : Instr} {s : State} (h : Ready s) (hpresentable : Presentable i = true)
    (hwindow : qualifyingTicks s.clk [i] ≤ s.wc) : ∃ t, WindowRun [i] s t := by
  obtain ⟨hword, hres⟩ : WellFormed i = true ∧ i ≠ .reserved11 := by simpa [Presentable] using hpresentable
  obtain ⟨t, hexec⟩ := exec_completes i s
  have hsame : min s.tally s.cfg.tallyMax = s.tally := Nat.min_eq_left (tally_le_of_ready h)
  refine ⟨t, ?_⟩
  obtain ⟨rfl, rfl⟩ | ⟨rfl, rfl⟩ | ⟨rfl, hclk, rfl⟩ | ⟨rfl, hclk, rfl⟩ | ⟨rfl, -⟩ := exec_ready_cases hword h hexec
  · exact windowRun_of_no_qualifyingTick h hword hexec hsame.symm rfl rfl
      (qualifyingTicks_cons_other (by decide) s.clk)
  · exact windowRun_of_no_qualifyingTick h hword hexec (satInc_eq_min (tally_le_of_ready h)) rfl rfl
      (qualifyingTicks_cons_other (by decide) s.clk)
  · exact windowRun_of_no_qualifyingTick h hword hexec hsame.symm rfl rfl
      fun js => hclk ▸ qualifyingTicks_cons_tick_low js
  · rw [hclk, qualifyingTicks_cons_tick_high, qualifyingTicks_nil] at hwindow
    exact windowRun_qtick h hclk (by omega)
  · exact absurd rfl hres

/-- Operations Env may present, with no more qualifying ticks than the window has left, hold no rollover. -/
theorem windowRun_of_presentable {is : List Instr} {s : State} (h : Ready s) (hpresentable : ∀ i ∈ is, Presentable i = true)
    (hwindow : qualifyingTicks s.clk is ≤ s.wc) : ∃ t, WindowRun is s t := by
  induction is generalizing s with
  | nil => exact ⟨s, windowRun_nil h⟩
  | cons i is ih =>
    have hfirst := (qualifyingTicks_le_append s.clk [i] is).trans hwindow
    obtain ⟨t, ht⟩ := windowRun_single h (hpresentable i List.mem_cons_self) hfirst
    have hrest : qualifyingTicks t.clk is ≤ t.wc := by
      have hsplit := ht.clk is
      rw [List.singleton_append] at hsplit
      rw [ht.wc]
      omega
    obtain ⟨u, hu⟩ := ih ht.ready (fun j hj => hpresentable j (List.mem_cons_of_mem i hj)) hrest
    exact ⟨u, ht.append hu⟩

/-- Settles O26. -/
theorem tallyCountsTheEdgesOfAWindow : Obligations.TallyCountsTheEdgesOfAWindow := by
  intro is s hready hpresentable hwindow
  obtain ⟨t, ht⟩ := windowRun_of_presentable hready hpresentable hwindow
  exact ⟨t, ht.run, ht.tally, ht.wc, ht.speed⟩

/-- `TW` is at least 10 (00_scope.md R5), so that a tally holds more than the three digits show. -/
theorem le_tallyMax {c : Cfg} (hc : ConfigOk c) : 1023 ≤ c.tallyMax := by
  obtain ⟨-, -, hTW, -⟩ := hc
  have hpow : 2 ^ 10 ≤ 2 ^ c.TW := Nat.pow_le_pow_right (by omega) hTW
  rw [Cfg.tallyMax]
  omega

/-- One more TICK adds a qualifying tick only where `CLK = 1`. -/
theorem clk_of_qualifyingTicks_tick {clk : Level} (h : qualifyingTicks clk [.tick] = 1) : clk = true := by
  cases clk with
  | false => rw [qualifyingTicks_cons_tick_low] at h; exact absurd h (by decide)
  | true => rfl

/-- Settles O27: the run before the rollover leaves `WC = 0` and the tally of the EDGEs, which saturates above 999 only. -/
theorem rolloverCapturesTheEdgesOfTheWindow : Obligations.RolloverCapturesTheEdgesOfTheWindow := by
  intro is s hready htally hpresentable hwindow hroll
  obtain ⟨t, ht⟩ := windowRun_of_presentable hready hpresentable hwindow.le
  have hmax := le_tallyMax hready.1
  have hwc : t.wc = 0 := by rw [ht.wc, hwindow, Nat.sub_self]
  have hclk : t.clk = true := clk_of_qualifyingTicks_tick (by have := ht.clk [.tick]; omega)
  refine ⟨qtick t, (performAll_append ht.run _).trans (performAll_cons (exec_tick_qualifying ht.ready hclk) []), ?_⟩
  rw [qtick_speed, qtick_tally, qtick_wc, if_pos hwc, if_pos hwc, if_pos hwc, clampSpeed_toNat, ht.tally, ht.cfg, htally]
  exact ⟨by omega, rfl, rfl⟩

/-! A coincident EDGE and TICK (60_exceptions.md R174). -/

theorem raise_tally_stat (f : FaultRecord) (s : State) (tally : Nat) (stat : Level) :
    raise f { s with tally := tally, stat := stat } = { raise f s with tally := tally, stat := stat } := by
  unfold raise; split <;> rfl

/-- No phase reads the tally or `STAT`. -/
theorem phaseAction_tally_stat (p : Phase) {s : State} (h : Ready s) (tally : Nat) (stat : Level) :
    phaseAction p { s with tally := tally, stat := stat } = { phaseAction p s with tally := tally, stat := stat } := by
  cases p with
  | start =>
    have hdecompose : decomposeSpeed { s with tally := tally, stat := stat } =
        { decomposeSpeed s with tally := tally, stat := stat } := by
      unfold decomposeSpeed
      split
      · exact raise_tally_stat _ s tally stat
      · rfl
    rw [phaseAction, dmuxStart_eq, dmuxStart_eq, hdecompose]
  | segment =>
    have ⟨hc, _, _, hcur, _⟩ := h
    have hdigit := segmentDigit_le h.2
    rw [phaseAction, dmuxSegment_eq hc hcur hdigit]
    exact dmuxSegment_eq (s := { s with tally := tally, stat := stat }) hc hcur hdigit
  | idle => rfl
  | finish => rw [phaseAction, dmuxEnd, dmuxEnd, drive_deN_eq, drive_deN_eq]

/-- A qualifying tick that is no rollover reads neither the tally nor `STAT`. -/
theorem qtick_tally_stat {s : State} (h : Ready s) (hwc : s.wc ≠ 0) (tally : Nat) (stat : Level) (trace : List PinEvent)
    (romOut : Option Pattern) :
    qtick { s with tally := tally, stat := stat, trace := trace, romOut := romOut } =
      { qtick s with tally := tally, stat := stat } := by
  have hentry : muxEntry { s with tally := tally, stat := stat, trace := trace, romOut := romOut } =
      { muxEntry s with tally := tally, stat := stat } := by
    simp only [muxEntry, toggledLow, rateWindow_eq, if_neg hwc]
  rw [qtick_eq, hentry, phaseAction_tally_stat _ (muxEntry_ready h), qtick_eq]
  rfl

/-- EDGE and a qualifying TICK that is no rollover commute, but for the outputs of the step. -/
theorem qtick_edgeCounted {s : State} (h : Ready s) (hwc : s.wc ≠ 0) :
    qtick (edgeCounted s) =
      { edgeCounted (qtick s) with trace := (qtick s).trace, romOut := (qtick s).romOut } :=
  calc qtick (edgeCounted s)
    _ = { qtick s with tally := satInc s.cfg.TW s.tally, stat := !s.stat } := qtick_tally_stat h hwc ..
    _ = _ := by simp only [edgeCounted, qtick_cfg, qtick_tally, if_neg hwc, qtick_stat]

/-- The first EDGE of a window counts, since the tally has room for it. -/
theorem satInc_zero {c : Cfg} (hc : ConfigOk c) : satInc c.TW 0 = 1 := by
  have hmax := le_tallyMax hc
  rw [Cfg.tallyMax] at hmax
  rw [satInc_eq_min (Nat.zero_le _)]
  omega

/-- Settles O28: a TICK that is no rollover commutes with EDGE; a rollover captures the tally as it finds it. -/
theorem coincidentEdgeAndTickInEitherOrder : Obligations.CoincidentEdgeAndTickInEitherOrder := by
  intro s hready
  have hedge := exec_edge_counted hready
  have hedgeReady := exec_ready rfl hready hedge
  cases hclk : s.clk with
  | false =>
    have htick := exec_tick_skip hready hclk
    exact ⟨_, _, (performAll_cons hedge _).trans (performAll_cons (exec_tick_skip hedgeReady hclk) []),
      (performAll_cons htick _).trans (performAll_cons (exec_edge_counted (exec_ready rfl hready htick)) []),
      fun _ => rfl, fun ⟨hhigh, _⟩ => by cases hhigh⟩
  | true =>
    refine ⟨qtick (edgeCounted s), edgeCounted (qtick s),
      (performAll_cons hedge _).trans (performAll_cons (exec_tick_qualifying hedgeReady hclk) []),
      (performAll_cons (exec_tick_qualifying hready hclk) _).trans
        (performAll_cons (exec_edge_counted (qtick_ready hready)) []),
      fun hno => ?_, fun ⟨_, hwc⟩ => ?_⟩
    · rw [qtick_edgeCounted hready fun hwc => hno ⟨rfl, hwc⟩]
    · have hwc' : (edgeCounted s).wc = 0 := hwc
      rw [qtick_speed, qtick_tally, if_pos hwc', if_pos hwc', edgeCounted_speed, edgeCounted_tally, edgeCounted_tally,
        qtick_speed, qtick_tally, qtick_cfg, if_pos hwc, if_pos hwc, clampSpeed_toNat, clampSpeed_toNat,
        satInc_eq_min (tally_le_of_ready hready), satInc_zero hready.1]
      exact ⟨rfl, rfl, rfl, rfl⟩

end Sys2Proof.Machine
end

section
/-! SUPPORT. One refresh cycle, tick by tick from its START tick (44_display_multiplexer.md R140, R141). -/

namespace Sys2Proof.Machine

theorem qtick_iterate_inv (n : Nat) {s : State} (h : Inv s) : Inv (qtick^[n] s) := by
  induction n with
  | zero => exact h
  | succ n ih => rw [Function.iterate_succ_apply']; exact qtick_inv ih

theorem qtick_iterate_frameInv (n : Nat) {s : State} (h : Ready s) (hframe : FrameInv s) : FrameInv (qtick^[n] s) := by
  induction n with
  | zero => exact hframe
  | succ n ih => rw [Function.iterate_succ_apply']; exact qtick_frameInv (qtick_iterate_ready n h) ih

/-- `RC` counts the qualifying ticks modulo `R` (R139). -/
theorem qtick_iterate_rc (n : Nat) {s : State} (h : Ready s) : (qtick^[n] s).rc = (s.rc + n) % s.cfg.R := by
  have ⟨_, _, hrc, _⟩ := h
  induction n with
  | zero => exact (Nat.mod_eq_of_lt hrc).symm
  | succ n ih => rw [Function.iterate_succ_apply', qtick_rc, qtick_iterate_cfg, ih, Nat.mod_add_mod, Nat.add_assoc]

/-- A START tick puts the cursor in its place whatever it was, and no bit has been shifted yet. -/
theorem frameInv_of_start {s : State} (h : Ready s) (hrc : s.rc = 0) : FrameInv (qtick s) := by
  have hR := refreshCycle_ge_of_ready h
  obtain ⟨-, hd, hs, -⟩ := qtick_start hrc
  have hrc' : (qtick s).rc = 1 := by rw [qtick_rc_of_lt (by omega), hrc]
  exact ⟨fun _ => ⟨hd, hs⟩, by omega, by omega⟩

section
variable {s : State} {j : Nat}

/-- After tick `j` of a cycle both place and bit of the cursor are known. -/
theorem frameInv_of_cycle (h : Ready s) (hrc : s.rc = 0) (j : Nat) : FrameInv (qtick^[j + 1] s) :=
  qtick_iterate_frameInv j (qtick_ready h) (frameInv_of_start h hrc)

theorem cycle_rc (h : Ready s) (hrc : s.rc = 0) (j : Nat) : (qtick^[j + 1] s).rc = (j + 1) % s.cfg.R := by
  rw [qtick_iterate_rc _ h, hrc, Nat.zero_add]

/-- The position of the cursor after tick `j` (R141): a segment tick later at each segment tick, the last position after
them. -/
theorem cycle_position (h : Ready s) (hrc : s.rc = 0) (hlo : 1 ≤ j) (hhi : j < s.cfg.R) :
    8 * (qtick^[j + 1] s).curD.toNat + (qtick^[j + 1] s).curS.toNat = min (j - 1) 23 := by
  have hR := refreshCycle_ge_of_ready h
  have hrc' := cycle_rc h hrc j
  obtain ⟨hends, hseg, -⟩ := frameInv_of_cycle h hrc j
  simp only [spc, nseg] at hends hseg
  obtain hsegment | hrest : j ≤ 24 ∨ 25 ≤ j := by omega
  · rw [Nat.mod_eq_of_lt (by omega)] at hrc'
    have hplace := hseg ⟨by omega, by omega⟩
    omega
  · have hplace : (qtick^[j + 1] s).rc ≤ 1 ∨ 25 ≤ (qtick^[j + 1] s).rc := by
      obtain hlt | hlast : j + 1 < s.cfg.R ∨ j + 1 = s.cfg.R := by omega
      · rw [hrc', Nat.mod_eq_of_lt hlt]; omega
      · rw [hrc', hlast, Nat.mod_self]; omega
    obtain ⟨hd, hs⟩ := hends hplace
    rw [hd, hs, Nat.min_eq_right (by omega)]
    rfl

/-- Settles O39: the position after segment tick `j` is `j − 1`. -/
theorem cursorVisitsEveryPositionOnce : Obligations.CursorVisitsEveryPositionOnce := by
  intro s j hready hclk hrc hlo hhi
  have hR := refreshCycle_ge_of_ready hready
  have hpos := cycle_position hready hrc hlo (by omega)
  have hlt := (qtick^[j + 1] s).curS.isLt
  exact ⟨_, performTimes_tick_even (j + 1) hready hclk, by omega, by omega⟩

/-- The digits of a frame are those its START tick left (R132). -/
theorem cycle_dig (h : Ready s) (hrc : s.rc = 0) (hj : j < s.cfg.R) : (qtick^[j + 1] s).dig = (qtick s).dig := by
  induction j with
  | zero => rfl
  | succ j ih =>
    have hrc' := cycle_rc h hrc j
    rw [Nat.mod_eq_of_lt hj] at hrc'
    rw [Function.iterate_succ_apply', qtick_dig (qtick_iterate_ready _ h), if_neg (by omega), ih (by omega)]

/-- From the first segment tick to the END tick `SDO` is at the bit of the cursor's position: END holds both. -/
theorem cycle_sdo (h : Ready s) (hrc : s.rc = 0) (hlo : 1 ≤ j) (hhi : j < s.cfg.R) :
    (qtick^[j + 1] s).sdo = cursorBit (qtick^[j + 1] s) := by
  have hR := refreshCycle_ge_of_ready h
  obtain hlt | hlast : j + 1 < s.cfg.R ∨ j + 1 = s.cfg.R := by omega
  · obtain ⟨-, -, hsdo⟩ := frameInv_of_cycle h hrc j
    exact hsdo (by rw [cycle_rc h hrc, Nat.mod_eq_of_lt hlt]; omega)
  · obtain ⟨k, rfl⟩ : ∃ k, j = k + 1 := ⟨j - 1, by omega⟩
    have hrc' := cycle_rc h hrc k
    rw [Nat.mod_eq_of_lt hhi] at hrc'
    obtain ⟨-, -, hsdo⟩ := frameInv_of_cycle h hrc k
    obtain ⟨hdig, hd, hs, -, -, hheld⟩ := qtick_hold (s := qtick^[k + 1] s) (by rwa [qtick_iterate_cfg]) (by omega)
      (by rw [qtick_iterate_cfg]; omega)
    rw [Function.iterate_succ_apply', hheld, cursorBit_congr (qtick_cfg _) hdig hd hs, hsdo (by omega)]

end

/-- The bit of the cursor's position in a state in range: that of the ROM entry of the digit there (R136). -/
theorem cursorBit_of_ready {s : State} (h : Ready s) : ∃ a e, digEntry s.dig s.curD = some a ∧
    s.cfg.segTable[a.toNat]? = some e ∧ cursorBit s = e.testBit s.curS.toNat := by
  have ⟨hc, _, _, hcur, h0, h1, h2, _⟩ := h
  have hentry := digEntry_eq hcur s.dig
  have hle : (if s.curD = 0 then s.dig.d0 else if s.curD = 1 then s.dig.d1 else s.dig.d2).toNat ≤ 9 := by
    split
    · exact h0
    · split
      · exact h1
      · exact h2
  obtain ⟨e, he, -⟩ := memRead_eq hc hle
  refine ⟨_, e, hentry, he, ?_⟩
  rw [cursorBit, hentry, Option.getD_some, romData_eq hc he, segBit_ofNat]

/-- The digits the START tick leaves, from the state before it (42_tick_scheduler.md R113). -/
theorem start_dig {s : State} (hspeed : s.speed.toNat ≤ 999) (hrc : s.rc = 0) :
    (qtick s).dig = digitsOf (if s.wc = 0 then clampSpeed s.tally else s.speed) := by
  rw [(qtick_start hrc).1, if_pos (qtick_speed_le hspeed), qtick_speed]

/-- Settles O38: the invariants give the pins and the place of the cursor after each tick of the cycle. -/
theorem frameTimeline : Obligations.FrameTimeline := by
  intro s j hinv hclk hrc hj
  have ⟨hready, hspeed, _⟩ := hinv
  have hR := refreshCycle_ge_of_ready hready
  have hrc' := cycle_rc hready hrc j
  obtain ⟨hready', -, hdeN, hsb⟩ := qtick_iterate_inv (j + 1) hinv
  rw [qtick_iterate_cfg] at hdeN
  refine ⟨_, performTimes_tick_even (j + 1) hready hclk, hrc', ?_, ?_, ?_, ?_, fun hlo => ?_⟩
  · rw [← Bool.not_eq_false, hdeN, hrc']
    obtain hlt | hlast : j + 1 < s.cfg.R ∨ j + 1 = s.cfg.R := by omega
    · rw [Nat.mod_eq_of_lt hlt]; omega
    · rw [hlast, Nat.mod_self]; omega
  · rw [hsb, hrc']
    obtain hlt | hlast : j + 1 < s.cfg.R ∨ j + 1 = s.cfg.R := by omega
    · rw [Nat.mod_eq_of_lt hlt]; omega
    · rw [hlast, Nat.mod_self]; omega
  · rw [cycle_dig hready hrc hj, start_dig hspeed hrc, clampSpeed]
  · rintro rfl
    obtain ⟨-, -, -, -, -, hsdo⟩ := qtick_start hrc
    exact hsdo
  · have hpos := cycle_position hready hrc hlo hj
    have hlt := (qtick^[j + 1] s).curS.isLt
    obtain ⟨a, e, ha, he, hbit⟩ := cursorBit_of_ready hready'
    have hd : BitVec.ofNat 2 (min (j - 1) 23 / 8) = (qtick^[j + 1] s).curD := by
      rw [show min (j - 1) 23 / 8 = (qtick^[j + 1] s).curD.toNat by omega, BitVec.ofNat_toNat, BitVec.setWidth_eq]
    have hs : min (j - 1) 23 % 8 = (qtick^[j + 1] s).curS.toNat := by omega
    rw [qtick_iterate_cfg] at he
    exact ⟨a, e, hd ▸ ha, he, by rw [hs, ← hbit, cycle_sdo hready hrc hlo hj]⟩

end Sys2Proof.Machine
end
